-- ==== Sys2Proof/Word.lean ====
section
/-! DEFINITION. The word types of NEO-LINK (00_scope R10): bit 0 is the least significant bit, values are unsigned. -/

namespace Sys2Proof

/-- A byte of FRAMEBUF, of a wire frame or of a byte stream. -/
abbrev Byte := BitVec 8

/-- A 16-bit value: CRC, SEQ, IOERR_CNT, a command's immediate (30_encoding R100). -/
abbrev Half := BitVec 16

/-- A register of the window or a command word (10_state, 30_encoding R100). -/
abbrev Word := BitVec 32

/-- A value of the timebase NOW or of a timestamp, in TIME_UNIT (10_state R42, R57). -/
abbrev Time := BitVec 64

/-- A byte offset in the 4 KiB register window (10_state R63). -/
abbrev Offset := BitVec 12

end Sys2Proof
end

