-- ==== Sys2Proof/Config.lean ====
section
/-! DEFINITION. What is fixed outside the block or left open by the spec: the wire formats, the OPEN parameters (00_scope R7), the
steps the other agents may take (00_scope R14), the transport's outcomes (43_link R251 to R253), and the free values. -/

namespace Sys2Proof

/-- The four wire formats (00_scope R4, R7). -/
inductive Format where
  | A | B | C | D
  deriving DecidableEq, Repr, Inhabited

/-- The width of a host access. Only `word` is defined by the spec (20_memory R81). -/
inductive AccessWidth where
  | byte | half | word | double
  deriving DecidableEq, Repr, Inhabited

/-- The outcome of `transport_open` (43_link R251). -/
inductive OpenDraw where
  | ok | fail
  deriving DecidableEq, Repr, Inhabited

/-- The outcome of `transport_write` (43_link R252): all bytes sent, or a failure after `k` bytes. -/
inductive WriteDraw where
  | ok
  | err (k : Nat)
  deriving DecidableEq, Repr, Inhabited

/-- The outcome of `transport_read` (43_link R253): every byte of TRX, the first `k` bytes (at most all), or a failure. -/
inductive ReadDraw where
  | all
  | take (k : Nat)
  | err
  deriving DecidableEq, Repr, Inhabited

/-- One step of one agent (00_scope R14), or an annotation of a test program (30_encoding R106). -/
inductive AgentStep where
  /-- Timebase: NOW becomes `t`, if that is no earlier (10_state R42; `@time`). -/
  | time (t : Time)
  /-- Engine: one tick, enabled while RUNNING = 1 (43_link R210; `@tick`). -/
  | tick
  /-- Transport: `bs` arrive in TRX, enabled while open (43_link R250; `@rx`). -/
  | rx (bs : List Byte)
  /-- Host: a read of the register window (20_memory R81, R84; `RD`). -/
  | read (width : AccessWidth) (off : Offset)
  /-- Host: a write of the register window (20_memory R81, R85; `WR`). -/
  | write (width : AccessWidth) (off : Offset) (v : Word)
  /-- Annotation: fixes the outcome of every later open (30_encoding R106; `@draw open=`). -/
  | drawOpen (o : OpenDraw)
  /-- Annotation: fixes the outcome of every later write (30_encoding R106; `@draw write=`). -/
  | drawWrite (o : WriteDraw)
  /-- Annotation: fixes the outcome of every later read (30_encoding R106; `@draw read=`). -/
  | drawRead (o : ReadDraw)
  /-- Platform: the reset input (70_reset_and_hazards R290). -/
  | reset
  deriving DecidableEq, Repr, Inhabited

/-- The OPEN parameters of 00_scope R7, in the range R7 gives each: `nBIndex` is N_B - 3 and `depthIndex` is EVQ_DEPTH - 1.
The field defaults (N_B = 8, the test value of 95_test_vectors §0, and EVQ_DEPTH = 16, R7's default) are what a compiled run
sees; no proof sees a value of `Config.params`. -/
structure Params where
  nBIndex : Fin 253 := 5
  depthIndex : Fin 255 := 15
  deriving DecidableEq, Repr, Inhabited

/-- N_B, the size of a format B frame: 3 to 255 (00_scope R7, I7). -/
def Params.nB (p : Params) : Nat := p.nBIndex.val + 3

/-- EVQ_DEPTH, the capacity of the event queue: 1 to 255 (00_scope R7, I9). -/
def Params.evqDepth (p : Params) : Nat := p.depthIndex.val + 1

/-- The parameters of this instance. OPEN in the spec: a constant with no body (log entry 5). -/
opaque Config.params : Params

/-- Free value: the outcome of an open that no annotation fixes, at draw number `n` (I14; log entry 3). -/
opaque Config.freeOpen : Nat → OpenDraw

/-- Free value: the outcome of a write that no annotation fixes, at draw number `n` (I15; log entry 3). -/
opaque Config.freeWrite : Nat → WriteDraw

/-- Free value: the outcome of a read that no annotation fixes, at draw number `n` (I16; log entry 3). -/
opaque Config.freeRead : Nat → ReadDraw

/-- Free value: the agent step taken where the agenda names none, at draw number `n` (00_scope R14, I12, I13, I17; log entry 1). -/
opaque Config.freeAgent : Nat → AgentStep

end Sys2Proof
end

