-- ==== Sys2Proof/Syntax.lean ====
section
/-! DEFINITION. The 18 commands of NEO-LINK, one constructor per row of spec/opcode_table.json (30_encoding R103). -/

namespace Sys2Proof

/-- A command, with the operand of its form (30_encoding R102): a byte `b` (form B8), a length `len` (form L), a format `f`
(form F), or none (form Z). -/
inductive Instr where
  | nop
  | crcInit
  | crcByte (b : Byte)
  | crcBuf (len : Half)
  | ck8Init
  | ck8Byte (b : Byte)
  | ck8Buf (len : Half)
  | frmSeal (f : Format)
  | frmCheck (f : Format)
  | frmEncA
  | frmEncD
  | snapCommit
  | syncFeed (b : Byte)
  | syncClr
  | linkStart
  | linkStop
  | linkSend
  | evqPop
  deriving DecidableEq, Repr, Inhabited

end Sys2Proof
end

