-- ==== Sys2Proof/WellFormed.lean ====
section
/-! DEFINITION. Which terms of `Instr` some legal command word stands for (30_encoding R102). -/

namespace Sys2Proof

/-- A command whose operand obeys its form's constraint: a length is at most 256 (form L). The byte and format operands are legal at every value. -/
def WellFormed : Instr → Bool
  | .crcBuf len => decide (len.toNat ≤ 256)
  | .ck8Buf len => decide (len.toNat ≤ 256)
  | .nop => true
  | .crcInit => true
  | .crcByte _ => true
  | .ck8Init => true
  | .ck8Byte _ => true
  | .frmSeal _ => true
  | .frmCheck _ => true
  | .frmEncA => true
  | .frmEncD => true
  | .snapCommit => true
  | .syncFeed _ => true
  | .syncClr => true
  | .linkStart => true
  | .linkStop => true
  | .linkSend => true
  | .evqPop => true

end Sys2Proof
end

