-- ==== Sys2Proof/Decode.lean ====
section
/-! DEFINITION. The decoder of command words, total and rejecting by name, and the encoder (30_encoding R100 to R105). -/

namespace Sys2Proof

/-- Why a word is no legal command. The host's write of such a word performs `raise ILLEGAL` (60_exceptions R265). -/
inductive DecodeError where
  /-- w[31:24] is not 0 (30_encoding R101). -/
  | topByte
  /-- OP is not in the opcode map (30_encoding R104). -/
  | reservedOp
  /-- IMM breaks the constraint of the command's form (30_encoding R102). -/
  | operand
  deriving DecidableEq, Repr

/-- OP, bits 7:0 (30_encoding R100). -/
def opField (w : Word) : Byte := w.extractLsb' 0 8

/-- IMM, bits 23:8 (30_encoding R100). -/
def immField (w : Word) : Half := w.extractLsb' 8 16

/-- Bits 31:24, which must be 0 (30_encoding R100). -/
def topField (w : Word) : Byte := w.extractLsb' 24 8

/-- Form Z: no operand, IMM = 0 (30_encoding R102). -/
def formZ (imm : Half) (i : Instr) : Except DecodeError Instr :=
  if imm = 0#16 then .ok i else .error .operand

/-- Form B8: byte IMM[7:0], IMM[15:8] = 0 (30_encoding R102). -/
def formB8 (imm : Half) (k : Byte → Instr) : Except DecodeError Instr :=
  if imm.extractLsb' 8 8 = 0#8 then .ok (k (imm.extractLsb' 0 8)) else .error .operand

/-- The L form's constraint: a length is legal iff it is at most 256 (30_encoding R102). -/
def lengthLegal (len : Half) : Bool := decide (len.toNat ≤ 256)

/-- Form L: length IMM, at most 256 (30_encoding R102). -/
def formL (imm : Half) (k : Half → Instr) : Except DecodeError Instr :=
  if lengthLegal imm then .ok (k imm) else .error .operand

/-- The format that IMM[1:0] numbers: 0 = A, 1 = B, 2 = C, 3 = D (30_encoding R102). -/
def formatOf (n : BitVec 2) : Format :=
  if n = 0#2 then .A else if n = 1#2 then .B else if n = 2#2 then .C else .D

/-- Form F: format IMM[1:0], IMM[15:2] = 0 (30_encoding R102). -/
def formF (imm : Half) (k : Format → Instr) : Except DecodeError Instr :=
  if imm.extractLsb' 2 14 = 0#14 then .ok (k (formatOf (imm.extractLsb' 0 2))) else .error .operand

/-- The opcode map, with each OP's operand form (30_encoding R103). Every other OP is reserved (R104). -/
def decodeOp (op : Nat) (imm : Half) : Except DecodeError Instr :=
  match op with
  | 0x00 => formZ imm .nop
  | 0x01 => formZ imm .crcInit
  | 0x02 => formB8 imm .crcByte
  | 0x03 => formL imm .crcBuf
  | 0x04 => formZ imm .ck8Init
  | 0x05 => formB8 imm .ck8Byte
  | 0x06 => formL imm .ck8Buf
  | 0x10 => formF imm .frmSeal
  | 0x11 => formF imm .frmCheck
  | 0x12 => formZ imm .frmEncA
  | 0x13 => formZ imm .frmEncD
  | 0x14 => formZ imm .snapCommit
  | 0x20 => formB8 imm .syncFeed
  | 0x21 => formZ imm .syncClr
  | 0x30 => formZ imm .linkStart
  | 0x31 => formZ imm .linkStop
  | 0x32 => formZ imm .linkSend
  | 0x40 => formZ imm .evqPop
  | _ => .error .reservedOp

/-- Decodes a command word: top byte, then OP, then operand form (60_exceptions R265 item 1). -/
def decode (w : Word) : Except DecodeError Instr :=
  if topField w = 0#8 then decodeOp (opField w).toNat (immField w) else .error .topByte

/-- The OP value of a command (30_encoding R103). -/
def opcode : Instr → Byte
  | .nop => 0x00#8
  | .crcInit => 0x01#8
  | .crcByte _ => 0x02#8
  | .crcBuf _ => 0x03#8
  | .ck8Init => 0x04#8
  | .ck8Byte _ => 0x05#8
  | .ck8Buf _ => 0x06#8
  | .frmSeal _ => 0x10#8
  | .frmCheck _ => 0x11#8
  | .frmEncA => 0x12#8
  | .frmEncD => 0x13#8
  | .snapCommit => 0x14#8
  | .syncFeed _ => 0x20#8
  | .syncClr => 0x21#8
  | .linkStart => 0x30#8
  | .linkStop => 0x31#8
  | .linkSend => 0x32#8
  | .evqPop => 0x40#8

/-- The number of a format in an F-form immediate (30_encoding R102). -/
def formatNumber : Format → Half
  | .A => 0#16
  | .B => 1#16
  | .C => 2#16
  | .D => 3#16

/-- The IMM value of a command (30_encoding R102). -/
def immediate : Instr → Half
  | .crcByte b => b.setWidth 16
  | .ck8Byte b => b.setWidth 16
  | .syncFeed b => b.setWidth 16
  | .crcBuf len => len
  | .ck8Buf len => len
  | .frmSeal f => formatNumber f
  | .frmCheck f => formatNumber f
  | .nop => 0#16
  | .crcInit => 0#16
  | .ck8Init => 0#16
  | .frmEncA => 0#16
  | .frmEncD => 0#16
  | .snapCommit => 0#16
  | .syncClr => 0#16
  | .linkStart => 0#16
  | .linkStop => 0#16
  | .linkSend => 0#16
  | .evqPop => 0#16

/-- The command word `OP | (IMM << 8)` (30_encoding R105). -/
def encode (i : Instr) : Word :=
  (opcode i).setWidth 32 ||| ((immediate i).setWidth 32 <<< 8)

/-- The instruction the decoder reads from a table row's bits `w`, numbered as spec/opcode_table.json numbers them: a row is one
32-bit word, so bit k of `w` is bit k of the command word, and bits at `nbits` and above are 0. -/
def decodeTableWord (nbits w : Nat) : Option Instr :=
  match decode (BitVec.ofNat 32 (w % 2 ^ nbits)) with
  | .ok i => some i
  | .error _ => none

end Sys2Proof
end

