-- ==== Sys2Proof/Machine/State.lean ====
section
/-! DEFINITION. The state of one NEO-LINK instance (10_state R30), its reset value (70_reset_and_hazards R292, R315), and the
reasons a run stops. -/

namespace Sys2Proof.Machine

/-- CTRL.VARIANT: protocol variant A or B. The reserved values 2 and 3 are never stored (10_state R32). -/
inductive Variant where
  | a | b
  deriving DecidableEq, Repr, Inhabited

/-- The link state (10_state R58, 43_link R221). -/
inductive LinkState where
  | stale | synced
  deriving DecidableEq, Repr, Inhabited

/-- The result codes 0x00 to 0x07 (60_exceptions R260). Codes 0x08 to 0xFF are never written (I6). -/
inductive ResultCode where
  | ok | checksumMismatch | malformedFrame | illegal | busy | notRunning | openFailure | empty
  deriving DecidableEq, Repr, Inhabited

/-- An event of the event queue (10_state R60). Only TELEMETRY carries a record, the whole verified frame. -/
inductive Event where
  | telemetry (frame : List Byte)
  | linkTimeout
  | connOpened
  | connClosed
  deriving DecidableEq, Repr

/-- The fields of a command snapshot, staging S_* or active A_* (10_state R48, R51). -/
structure Snapshot where
  mode : Byte
  t0 : Word
  t1 : Word
  t2 : Word
  t3 : Word
  /-- bit 0 SAFETY, 1 LOAD, 2 FIRE, 3 ENABLE, 4 BYPASS, 5 RESET_CYCLE (10_state R49). -/
  flags : BitVec 6
  manual : Byte
  burst : Byte
  ammo : Word
  dOp : Byte
  dVal : Half
  deriving DecidableEq, Repr

/-- FRAMEBUF as (index, byte) pairs in canonical form: indexes rising, below 256, no byte 0x00. An index not listed holds 0x00,
the reset value of every byte (10_state R53; log entry 10). -/
abbrev Memory := List Host.Cell

/-- Every piece of state of 10_state R30, and last the model's own fields. -/
structure State where
  /-- CTRL.VARIANT (10_state R32). -/
  variant : Variant
  /-- CTRL.IRQ_EN (10_state R32). -/
  irqEn : Bool
  /-- STATUS.RUNNING; the transport is open exactly while it is true (10_state R59, R56). -/
  running : Bool
  /-- STATUS.LINK (10_state R58). -/
  link : LinkState
  /-- STATUS.OPEN_FAIL (10_state R33, R61). -/
  openFail : Bool
  /-- STATUS.EVQ_OVF (10_state R33, R61). -/
  evqOvf : Bool
  /-- RESULT (10_state R36). -/
  result : ResultCode
  /-- CRC, the CRC-16 accumulator (10_state R37). -/
  crc : Half
  /-- CK8, the 8-bit checksum accumulator (10_state R38). -/
  ck8 : Byte
  /-- SEQ, the sequence counter (10_state R39). -/
  seq : Half
  /-- T_TX, the transmit interval (10_state R40). -/
  tTx : Word
  /-- T_WD, the watchdog threshold (10_state R41). -/
  tWd : Word
  /-- NOW, the timebase (10_state R42). -/
  now : Time
  /-- NOW_HI_LATCH, loaded by a read of NOW_LO (10_state R43). -/
  nowHiLatch : Word
  /-- FRAMELEN (10_state R44). -/
  frameLen : Byte
  /-- IOERR_CNT (10_state R45). -/
  ioErrCnt : Half
  /-- SUBID_A (10_state R47). -/
  subIdA : Byte
  /-- The staging snapshot S_* (10_state R48). -/
  staging : Snapshot
  /-- The active snapshot A_* (10_state R51). -/
  active : Snapshot
  /-- FRAMEBUF (10_state R53). -/
  frameBuf : Memory
  /-- RXBUF, the reassembly buffer, oldest byte first (10_state R55). -/
  rxBuf : List Byte
  /-- LAST_TX (10_state R57). -/
  lastTx : Time
  /-- LAST_RX (10_state R57). -/
  lastRx : Time
  /-- EVQ, the event queue, head first (10_state R60). -/
  evq : List Event
  /-- TRX, the bytes received and not yet read, oldest first (10_state R56). -/
  trx : List Byte
  /-- TTX, every byte handed to the transport, in order (10_state R56). -/
  ttx : List Byte
  /-- MODEL: the OPEN parameters of this instance (00_scope R7; log entry 5). No step changes them. -/
  params : Params
  /-- MODEL: the agent steps that come next, in order (00_scope R14, 20_memory R86; log entry 1). -/
  agenda : List AgentStep
  /-- MODEL: the outcome fixed for every later open, if any (30_encoding R106; log entry 3). -/
  openDraw : Option OpenDraw
  /-- MODEL: the outcome fixed for every later write, if any (30_encoding R106; log entry 3). -/
  writeDraw : Option WriteDraw
  /-- MODEL: the outcome fixed for every later read, if any (30_encoding R106; log entry 3). -/
  readDraw : Option ReadDraw
  /-- MODEL: how many steps were taken; the free values are applied to it (log entry 3). -/
  drawCount : Nat
  /-- MODEL: the value the last host read returned, none before the first (20_memory R84; log entry 9). -/
  busData : Option Word
  deriving DecidableEq, Repr

/-- Why a run stops with a fault. -/
inductive Fault where
  /-- Raised by the register window (`Machine.accessFault`) on an 8-bit, 16-bit or 64-bit host access (20_memory R81; log entry 8).
  Safe: the real bus may go on in any way. -/
  | narrowAccess
  /-- Raised by the register window (`Machine.accessFault`) on a 32-bit host access at an offset that is not a multiple of 4
  (20_memory R81; log entry 8). Safe: the real bus may go on in any way. -/
  | unalignedAccess
  deriving DecidableEq, Repr

/-- Why an instruction has no meaning. -/
inductive Refusal where
  /-- Raised by an arm of `exec` for an instruction that has no meaning yet. No arm does. Safe. -/
  | notModelled (mnemonic : String)
  deriving DecidableEq, Repr

/-- Every field of a snapshot at its reset value 0 (10_state R48, R51). -/
def Snapshot.zero : Snapshot :=
  { mode := 0, t0 := 0, t1 := 0, t2 := 0, t3 := 0, flags := 0, manual := 0, burst := 0, ammo := 0, dOp := 0, dVal := 0 }

/-- The machine right after reset: RESET_STATE (70_reset_and_hazards R292, R315), the OPEN parameters open, nothing on the agenda
and no outcome of the transport fixed. -/
def State.reset : State :=
  { variant := .a, irqEn := false, running := false, link := .stale, openFail := false, evqOvf := false, result := .ok,
    crc := 0xFFFF#16, ck8 := 0x00#8, seq := 0x0000#16, tTx := 5000#32, tWd := 1000000#32, now := 0#64, nowHiLatch := 0#32,
    frameLen := 0#8, ioErrCnt := 0#16, subIdA := 0x00#8, staging := Snapshot.zero, active := Snapshot.zero, frameBuf := [],
    rxBuf := [], lastTx := 0#64, lastRx := 0#64, evq := [], trx := [], ttx := [],
    params := Config.params, agenda := [], openDraw := none, writeDraw := none, readDraw := none, drawCount := 0, busData := none }

end Sys2Proof.Machine
end

