-- ==== Sys2Proof/Machine/Ops.lean ====
section
/-! DEFINITION. The named operations over FRAMEBUF and the registers, little-endian byte encodings (00_scope R11, R12), and the
shared ways a command ends (60_exceptions R260, R261). -/

namespace Sys2Proof.Machine

/-! ### Little-endian bytes (00_scope R11) -/

/-- `le_2(v)`. -/
def le2 (v : Half) : List Byte := [v.extractLsb' 0 8, v.extractLsb' 8 8]

/-- `le_4(v)`. -/
def le4 (v : Word) : List Byte := [v.extractLsb' 0 8, v.extractLsb' 8 8, v.extractLsb' 16 8, v.extractLsb' 24 8]

/-- `from_le(bs)`: the unsigned value of the bytes read little-endian. -/
def fromLe : List Byte → Nat
  | [] => 0
  | b :: bs => b.toNat + 256 * fromLe bs

/-- A word from its four byte lanes, the lowest first (20_memory R82). -/
def packWord (b0 b1 b2 b3 : Byte) : Word := b3 ++ b2 ++ b1 ++ b0

/-! ### FRAMEBUF (10_state R53) -/

/-- The number of bytes of FRAMEBUF: MAXN (00_scope R7). -/
def frameBufSize : Nat := 256

/-- `FB[i]`. A byte that is not listed holds its reset value 0x00. -/
def Memory.read : Memory → Nat → Byte
  | [], _ => 0x00#8
  | (a, b) :: m, i => if a = i then b else Memory.read m i

/-- A cell put before the first cell of a higher index. -/
def Memory.insert : Memory → Nat → Byte → Memory
  | [], i, v => [(i, v)]
  | (a, b) :: m, i, v => if i < a then (i, v) :: (a, b) :: m else (a, b) :: Memory.insert m i v

/-- The list whose byte at index `i` is `v`: the old cell goes, and a new one comes unless `v` is 0x00. -/
def Memory.put (m : Memory) (i : Nat) (v : Byte) : Memory :=
  let rest := m.filter fun c => c.1 != i
  if v = 0x00#8 then rest else Memory.insert rest i v

/-- `FB[i] <- v`. FRAMEBUF has no byte at index 256 or above, and no rule writes one. -/
def Memory.write (m : Memory) (i : Nat) (v : Byte) : Memory :=
  if i < frameBufSize then Memory.put m i v else m

/-- `FB[i .. i+n-1]`. -/
def Memory.readBytes (m : Memory) (i n : Nat) : List Byte :=
  (List.range n).map fun k => Memory.read m (i + k)

/-- `FB[i .. i+|bs|-1] <- bs`. -/
def Memory.writeBytes (m : Memory) (i : Nat) : List Byte → Memory
  | [] => m
  | b :: bs => Memory.writeBytes (Memory.write m i b) (i + 1) bs

/-- The canonical form: indexes rising and below 256, no byte 0x00 listed. -/
def Memory.wf : Memory → Bool
  | [] => true
  | (a, b) :: m =>
    decide (a < frameBufSize) && decide (b ≠ 0x00#8) && m.all (fun c => decide (a < c.1)) && Memory.wf m

/-- `FB[i]` of a state. -/
def State.fb (s : State) (i : Nat) : Byte := Memory.read s.frameBuf i

/-- `FB[0 .. n-1]` of a state. -/
def State.fbBytes (s : State) (n : Nat) : List Byte := Memory.readBytes s.frameBuf 0 n

/-- The state with `FB[i ..] <- bs`. -/
def putFb (i : Nat) (bs : List Byte) (s : State) : State :=
  { s with frameBuf := Memory.writeBytes s.frameBuf i bs }

/-! ### How a command ends -/

/-- `raise Code`, and `RESULT <- OK` of a command that completes: RESULT is written and nothing else changes (00_scope R11,
60_exceptions R260, R261). NEO-LINK takes no traps (60_exceptions R268), so this is what takes the place of an exception. -/
def raise (c : ResultCode) (s : State) : State := { s with result := c }

/-- Every command completes in its own step (20_memory R86, 70_reset_and_hazards R300). -/
def complete (s : State) : Host.Outcome State Fault Refusal := .next s

/-! ### Counters and the event queue -/

/-- `sat_inc16(x)` (00_scope R11, 40_checksum R153). -/
def satInc16 (x : Half) : Half := if x = 0xFFFF#16 then 0xFFFF#16 else x + 1#16

/-- A transient transport error is counted (60_exceptions R275). -/
def countIoErr (s : State) : State := { s with ioErrCnt := satInc16 s.ioErrCnt }

/-- `enqueue(ev)`: appended if EVQ holds fewer than EVQ_DEPTH events, else dropped and EVQ_OVF set (43_link R240). -/
def enqueue (ev : Event) (s : State) : State :=
  if s.evq.length < s.params.evqDepth then { s with evq := s.evq ++ [ev] } else { s with evqOvf := true }

/-! ### Reset -/

/-- One step of the platform's reset input (70_reset_and_hazards R290 to R292): every register and hidden state at its reset value,
TRX empty. TTX is not reset by the block (R292). The model's own fields are no state of the block and keep their values
(log entry 12). -/
def resetBlock (s : State) : State :=
  { State.reset with
    ttx := s.ttx, params := s.params, agenda := s.agenda, openDraw := s.openDraw, writeDraw := s.writeDraw,
    readDraw := s.readDraw, drawCount := s.drawCount, busData := s.busData }

end Sys2Proof.Machine
end

