-- ==== Sys2Proof/Machine/Integrity.lean ====
section
/-! DEFINITION. The two integrity functions (40_checksum R140, R141, R143), which the checksum commands, the codec and the
synchronizer share. -/

namespace Sys2Proof.Machine

/-- One of the 8 rounds of `crc_step`: shift left, and XOR 0x1021 if the top bit was set (40_checksum R140). -/
def crcRound (r : Half) : Half := if r.msb then (r <<< 1) ^^^ 0x1021#16 else r <<< 1

/-- `n` rounds. -/
def crcRounds : Nat → Half → Half
  | 0, r => r
  | n + 1, r => crcRounds n (crcRound r)

/-- `crc_step(c, b)`: the byte XORed into the high byte, then 8 rounds (40_checksum R140). -/
def crcStep (c : Half) (b : Byte) : Half := crcRounds 8 (c ^^^ (b.setWidth 16 <<< 8))

/-- The CRC continued from `c` over `bs` (40_checksum R149). -/
def crcFrom (c : Half) (bs : List Byte) : Half := bs.foldl crcStep c

/-- `crc16(bs)` (40_checksum R141). -/
def crc16 (bs : List Byte) : Half := crcFrom 0xFFFF#16 bs

/-- The 8-bit sum continued from `c` over `bs`, the carry dropped (40_checksum R151, R152). -/
def ck8From (c : Byte) (bs : List Byte) : Byte := bs.foldl (fun s b => s + b) c

/-- `checksum8(bs)` (40_checksum R143). -/
def checksum8 (bs : List Byte) : Byte := ck8From 0x00#8 bs

end Sys2Proof.Machine
end

