-- ==== Sys2Proof/Machine/Operands.lean ====
section
/-! DEFINITION. What the operands of the commands name: the wire formats' sizes, headers and trailers (00_scope R7 to R9), and the
bytes a length or a format selects in FRAMEBUF. -/

namespace Sys2Proof.Machine

/-- N_f, the size of a frame of format f (00_scope R7; 30_encoding R120 to R124). -/
def frameSize (p : Params) : Format → Nat
  | .A => 35
  | .B => p.nB
  | .C => 20
  | .D => 5

/-- H_f, the header byte of format f (00_scope R7). -/
def header : Format → Byte
  | .A => 0xA5#8
  | .B => 0x55#8
  | .C => 0xA5#8
  | .D => 0xA5#8

/-- The size of the trailer: a CRC-16 for A and B, an 8-bit checksum for C and D (00_scope R8). -/
def trailerSize : Format → Nat
  | .A => 2
  | .B => 2
  | .C => 1
  | .D => 1

/-- RXF, the receive format of the selected protocol variant (00_scope R9). -/
def rxFormat : Variant → Format
  | .a => .B
  | .b => .C

/-- N_RX (00_scope R9). -/
def rxSize (s : State) : Nat := frameSize s.params (rxFormat s.variant)

/-- H_RX (00_scope R9). -/
def rxHeader (s : State) : Byte := header (rxFormat s.variant)

/-- The bytes that a legal length operand selects: FB[0 .. len-1] (30_encoding R102, 40_checksum R149, R152). -/
def lengthBytes (len : Half) (s : State) : List Byte := s.fbBytes len.toNat

/-- The frame LINK.SEND sends: FB[0 .. FRAMELEN-1] (43_link R233). -/
def sendBytes (s : State) : List Byte := s.fbBytes s.frameLen.toNat

end Sys2Proof.Machine
end

