-- ==== Sys2Proof/Machine/Checksum.lean ====
section
/-! DEFINITION. The checksum family: CRC.INIT, CRC.BYTE, CRC.BUF, CK8.INIT, CK8.BYTE, CK8.BUF (40_checksum R147 to R152). All are
allowed in every state, and none fails on a legal operand (R146). -/

namespace Sys2Proof.Machine

/-- CRC.INIT (40_checksum R147). -/
def execCrcInit (s : State) : Host.Outcome State Fault Refusal :=
  complete (raise .ok { s with crc := 0xFFFF#16 })

/-- CRC.BYTE b (40_checksum R148). -/
def execCrcByte (b : Byte) (s : State) : Host.Outcome State Fault Refusal :=
  complete (raise .ok { s with crc := crcStep s.crc b })

/-- CRC.BUF len (40_checksum R149). A length above 256 is ILLEGAL (30_encoding R102; log entry 14). -/
def execCrcBuf (len : Half) (s : State) : Host.Outcome State Fault Refusal :=
  complete (if lengthLegal len then raise .ok { s with crc := crcFrom s.crc (lengthBytes len s) } else raise .illegal s)

/-- CK8.INIT (40_checksum R150). -/
def execCk8Init (s : State) : Host.Outcome State Fault Refusal :=
  complete (raise .ok { s with ck8 := 0x00#8 })

/-- CK8.BYTE b (40_checksum R151). -/
def execCk8Byte (b : Byte) (s : State) : Host.Outcome State Fault Refusal :=
  complete (raise .ok { s with ck8 := s.ck8 + b })

/-- CK8.BUF len (40_checksum R152). A length above 256 is ILLEGAL (30_encoding R102; log entry 14). -/
def execCk8Buf (len : Half) (s : State) : Host.Outcome State Fault Refusal :=
  complete (if lengthLegal len then raise .ok { s with ck8 := ck8From s.ck8 (lengthBytes len s) } else raise .illegal s)

end Sys2Proof.Machine
end

