-- ==== Sys2Proof/Machine/Wire.lean ====
section
/-! DEFINITION. The wire frames: trailers, the frame check, the two encoders, and the fields of a frame as a reader takes them
(30_encoding R120 to R125, 41_codec R160, R165, R166). -/

namespace Sys2Proof.Machine

/-- The trailer of format f over a payload: le_2(crc16) for A and B, checksum8 for C and D (00_scope R8). -/
def trailer (f : Format) (payload : List Byte) : List Byte :=
  match f with
  | .A => le2 (crc16 payload)
  | .B => le2 (crc16 payload)
  | .C => [checksum8 payload]
  | .D => [checksum8 payload]

/-- `valid_f(F)`: the length is N_f and the trailer, read little-endian, is the check of every byte before it. Neither the header nor
any other payload byte is looked at (41_codec R160, R167). -/
def validFrame (p : Params) (f : Format) (F : List Byte) : Bool :=
  let n := frameSize p f
  if F.length ≠ n then false
  else
    match f with
    | .A => (crc16 (F.take (n - 2))).toNat == fromLe (F.drop (n - 2))
    | .B => (crc16 (F.take (n - 2))).toNat == fromLe (F.drop (n - 2))
    | .C => (checksum8 (F.take (n - 1))).toNat == fromLe (F.drop (n - 1))
    | .D => (checksum8 (F.take (n - 1))).toNat == fromLe (F.drop (n - 1))

/-- The byte of FLAGS bit k: 0x00 or 0x01 (30_encoding R121, 41_codec R165). -/
def flagByte (flags : BitVec 6) (k : Nat) : Byte := (BitVec.ofBool (flags.getLsbD k)).setWidth 8

/-- The 33 payload bytes of a format A frame (30_encoding R120, 41_codec R165). -/
def payloadA (subId : Byte) (c : Snapshot) (seq : Half) (ammo : Word) : List Byte :=
  [header .A, subId] ++ le2 seq ++ [c.mode] ++ le4 c.t0 ++ le4 c.t1 ++ le4 c.t2 ++ le4 c.t3
    ++ [flagByte c.flags 0, flagByte c.flags 1, flagByte c.flags 2] ++ [c.manual, c.burst] ++ le4 ammo
    ++ [flagByte c.flags 3, flagByte c.flags 4, flagByte c.flags 5]

/-- `enc_A(seq, ammo)` over SUBID_A and the active snapshot (41_codec R165). -/
def encA (s : State) (seq : Half) (ammo : Word) : List Byte :=
  payloadA s.subIdA s.active seq ammo ++ trailer .A (payloadA s.subIdA s.active seq ammo)

/-- The 4 payload bytes of a format D frame (30_encoding R124, 41_codec R166). -/
def payloadD (c : Snapshot) : List Byte := [header .D, c.dOp] ++ le2 c.dVal

/-- `enc_D()` over the active snapshot (41_codec R166). -/
def encD (s : State) : List Byte := payloadD s.active ++ trailer .D (payloadD s.active)

/-! ### Reading fields back (30_encoding R125, 41_codec R170) -/

/-- An unsigned field of `w` bytes at offset `o` of a frame (30_encoding R125). -/
def fieldU (F : List Byte) (o w : Nat) : Nat := fromLe ((F.drop o).take w)

/-- A signed 16-bit field at offset `o`, two's complement, extended to 32 bits (30_encoding R125). -/
def fieldS16 (F : List Byte) (o : Nat) : Word := (BitVec.ofNat 16 (fieldU F o 2)).signExtend 32

/-- The fields of a format C frame as the host reads them (30_encoding R123, R125). -/
structure JoystickRecord where
  subId : Byte
  digital : Byte
  axis1X : Word
  axis1Y : Word
  buttons1 : Half
  axis2X : Word
  axis2Y : Word
  buttons2 : Half
  counter : Word
  deriving DecidableEq, Repr

/-- The host's reading of a format C frame, at the offsets of 30_encoding R123. -/
def readJoystick (F : List Byte) : JoystickRecord :=
  { subId := BitVec.ofNat 8 (fieldU F 1 1), digital := BitVec.ofNat 8 (fieldU F 2 1), axis1X := fieldS16 F 3,
    axis1Y := fieldS16 F 5, buttons1 := BitVec.ofNat 16 (fieldU F 7 2), axis2X := fieldS16 F 9, axis2Y := fieldS16 F 11,
    buttons2 := BitVec.ofNat 16 (fieldU F 13 2), counter := BitVec.ofNat 32 (fieldU F 15 4) }

/-- FLAGS bit from its byte of a format A frame: 0x01 is true and 0x00 is false (30_encoding R120, R121). DESIGN CHOICE (log entry 32):
R121 has no rule for any other byte; here it reads as false. No byte `encA` writes is such a byte, and no step of the block reads one. -/
def fieldFlag (F : List Byte) (o : Nat) : Bool := fieldU F o 1 == 1

/-- The Command Record's fields read back from a format A frame, at the offsets of 30_encoding R120 (41_codec R170). Format A has no
D_OP and no D_VAL: they read 0 here, and a boolean byte that is neither 0x00 nor 0x01 reads as false (DESIGN CHOICE, log entry 32). -/
def readCommand (F : List Byte) : Snapshot :=
  { mode := BitVec.ofNat 8 (fieldU F 4 1), t0 := BitVec.ofNat 32 (fieldU F 5 4), t1 := BitVec.ofNat 32 (fieldU F 9 4),
    t2 := BitVec.ofNat 32 (fieldU F 13 4), t3 := BitVec.ofNat 32 (fieldU F 17 4),
    flags := BitVec.ofBool (fieldFlag F 32) ++ BitVec.ofBool (fieldFlag F 31) ++ BitVec.ofBool (fieldFlag F 30)
      ++ BitVec.ofBool (fieldFlag F 23) ++ BitVec.ofBool (fieldFlag F 22) ++ BitVec.ofBool (fieldFlag F 21),
    manual := BitVec.ofNat 8 (fieldU F 24 1), burst := BitVec.ofNat 8 (fieldU F 25 1),
    ammo := BitVec.ofNat 32 (fieldU F 26 4), dOp := 0, dVal := 0 }

end Sys2Proof.Machine
end

