-- ==== Sys2Proof/Machine/Codec.lean ====
section
/-! DEFINITION. The codec family: FRM.SEAL, FRM.CHECK, FRM.ENCA, FRM.ENCD, SNAP.COMMIT (41_codec R161 to R168). All are allowed in
every state. -/

namespace Sys2Proof.Machine

/-- Where FRM.SEAL writes: the first trailer byte, N_f less the trailer's size (41_codec R161). -/
def sealIndex (f : Format) (s : State) : Nat := frameSize s.params f - trailerSize f

/-- What FRM.SEAL writes: the trailer over every byte before it (41_codec R161). -/
def sealBytes (f : Format) (s : State) : List Byte := trailer f (s.fbBytes (sealIndex f s))

/-- FRM.SEAL f (41_codec R161). -/
def execFrmSeal (f : Format) (s : State) : Host.Outcome State Fault Refusal :=
  complete (raise .ok { putFb (sealIndex f s) (sealBytes f s) s with frameLen := BitVec.ofNat 8 (frameSize s.params f) })

/-- The result of FRM.CHECK: the length first, then the trailer (41_codec R162, 60_exceptions R265). -/
def checkResult (f : Format) (s : State) : ResultCode :=
  if s.frameLen.toNat ≠ frameSize s.params f then .malformedFrame
  else if validFrame s.params f (s.fbBytes (frameSize s.params f)) then .ok
  else .checksumMismatch

/-- FRM.CHECK f (41_codec R162). -/
def execFrmCheck (f : Format) (s : State) : Host.Outcome State Fault Refusal :=
  complete (raise (checkResult f s) s)

/-- FRM.ENCA (41_codec R163): neither SEQ nor A_AMMO changes. -/
def execFrmEncA (s : State) : Host.Outcome State Fault Refusal :=
  complete (raise .ok { putFb 0 (encA s s.seq s.active.ammo) s with frameLen := 35#8 })

/-- FRM.ENCD (41_codec R164). -/
def execFrmEncD (s : State) : Host.Outcome State Fault Refusal :=
  complete (raise .ok { putFb 0 (encD s) s with frameLen := 5#8 })

/-- The active snapshot after a commit: every staging field, but A_AMMO keeps a pending request where S_AMMO is 0 (41_codec R168). -/
def committed (s : State) : Snapshot :=
  { s.staging with ammo := if s.staging.ammo ≠ 0#32 then s.staging.ammo else s.active.ammo }

/-- SNAP.COMMIT (41_codec R168). -/
def execSnapCommit (s : State) : Host.Outcome State Fault Refusal :=
  complete (raise .ok { s with active := committed s, staging := { s.staging with ammo := 0#32 } })

end Sys2Proof.Machine
end

