-- ==== Sys2Proof/Machine/Transport.lean ====
section
/-! DEFINITION. The transport's operations as the engine asks them (43_link R250 to R255). An outcome is the one an `@draw` annotation
fixed (30_encoding R106), else a free value (I14 to I16; log entry 3). -/

namespace Sys2Proof.Machine

/-- The outcome of an open in this step (43_link R251). -/
def openOutcome (s : State) : OpenDraw := s.openDraw.getD (Config.freeOpen s.drawCount)

/-- The outcome of a write in this step (43_link R252). -/
def writeOutcome (s : State) : WriteDraw := s.writeDraw.getD (Config.freeWrite s.drawCount)

/-- The outcome of a read in this step (43_link R253). -/
def readOutcome (s : State) : ReadDraw := s.readDraw.getD (Config.freeRead s.drawCount)

/-- How many bytes of a frame of `m` bytes a failed write sends: `k`, and less than `m` (43_link R252; log entry 4). -/
def sentOnError (k m : Nat) : Nat := min k (m - 1)

/-- `transport_write(F)`: F whole to TTX, or a proper prefix and one more counted error (43_link R252). -/
def transportWrite (F : List Byte) (s : State) : State :=
  match writeOutcome s with
  | .ok => { s with ttx := s.ttx ++ F }
  | .err k => countIoErr { s with ttx := s.ttx ++ F.take (sentOnError k F.length) }

/-- `transport_read()`: the bytes read, which leave TRX from its head, or none at all on an error (43_link R253, 20_memory R91).
`take k` reads at most all of TRX (30_encoding R106). -/
def transportRead (s : State) : Option (List Byte) × State :=
  match readOutcome s with
  | .all => (some s.trx, { s with trx := [] })
  | .take k => (some (s.trx.take k), { s with trx := s.trx.drop k })
  | .err => (none, s)

/-- `transport_close()`: always succeeds and discards TRX (43_link R254). -/
def transportClose (s : State) : State := { s with trx := [] }

/-- Bytes arrive in TRX, only while the transport is open (43_link R250; log entry 7). -/
def transportArrive (bs : List Byte) (s : State) : State :=
  if s.running then { s with trx := s.trx ++ bs } else s

end Sys2Proof.Machine
end

