-- ==== Sys2Proof/Machine/Link.lean ====
section
/-! DEFINITION. The link family: LINK.START, LINK.STOP, LINK.SEND, EVQ.POP, NOP (43_link R230 to R234). -/

namespace Sys2Proof.Machine

/-- What a successful open starts (43_link R230). LINK, SEQ, the snapshots, CRC, CK8, FRAMEBUF and CTRL are not written. -/
def startLink (s : State) : State :=
  enqueue .connOpened
    { s with running := true, lastTx := s.now, lastRx := s.now, rxBuf := [], ioErrCnt := 0x0000#16, openFail := false }

/-- LINK.START on a stopped link: the open's outcome decides (43_link R230). A failed open also sets OPEN_FAIL, the one exception to
`raise` changing nothing else (60_exceptions R261). -/
def openLink (s : State) : State :=
  match openOutcome s with
  | .ok => raise .ok (startLink s)
  | .fail => raise .openFailure { s with openFail := true }

/-- LINK.START (43_link R230): allowed while RUNNING = 0, else BUSY and no open call. -/
def execLinkStart (s : State) : Host.Outcome State Fault Refusal :=
  complete (if s.running then raise .busy s else openLink s)

/-- What LINK.STOP does to a running link (43_link R231): close, CONN_CLOSED, then RUNNING and LINK. -/
def stopLink (s : State) : State :=
  { enqueue .connClosed (transportClose s) with running := false, link := .stale }

/-- LINK.STOP (43_link R231): allowed while RUNNING = 1, else NOT_RUNNING. -/
def execLinkStop (s : State) : Host.Outcome State Fault Refusal :=
  complete (if s.running then raise .ok (stopLink s) else raise .notRunning s)

/-- LINK.SEND (43_link R233): FB[0 .. FRAMELEN-1] as it is, no transport call for FRAMELEN = 0, OK also where the write fails. -/
def execLinkSend (s : State) : Host.Outcome State Fault Refusal :=
  complete
    (if s.running then raise .ok (if s.frameLen = 0#8 then s else transportWrite (sendBytes s) s) else raise .notRunning s)

/-- EVQ.POP (43_link R232). -/
def execEvqPop (s : State) : Host.Outcome State Fault Refusal :=
  complete
    (match s.evq with
    | [] => raise .empty s
    | _ :: rest => raise .ok { s with evq := rest })

/-- NOP (43_link R234). -/
def execNop (s : State) : Host.Outcome State Fault Refusal :=
  complete (raise .ok s)

end Sys2Proof.Machine
end

