-- ==== Sys2Proof/Machine/Synchronizer.lean ====
section
/-! DEFINITION. The frame synchronizer (42_sync R190 to R192): a byte-serial header search with one-byte resynchronization. -/

namespace Sys2Proof.Machine

/-- Steps a to d of `feed1` over a buffer, for frame size `n`, header `h` and check `valid` (42_sync R192). It gives the frames
emitted, in order, and what stays in the buffer. Each pass removes at least one byte or ends (R193), so fuel above the buffer's
length is never used up (log entry 19). -/
def resync (n : Nat) (h : Byte) (valid : List Byte → Bool) : Nat → List Byte → List (List Byte) × List Byte
  | 0, buf => ([], buf)
  | fuel + 1, buf =>
    -- b: the bytes before the first header are discarded
    match buf.dropWhile (fun b => b != h) with
    -- a: no header in the buffer, all of it is discarded
    | [] => ([], [])
    | c :: rest =>
      -- c: a partial frame waits for more data
      if (c :: rest).length < n then ([], c :: rest)
      -- d: the candidate is valid, it is emitted, and step 1 tests the length again
      else if valid ((c :: rest).take n) then
        if ((c :: rest).drop n).length < n then ([(c :: rest).take n], (c :: rest).drop n)
        else
          let r := resync n h valid fuel ((c :: rest).drop n)
          ((c :: rest).take n :: r.1, r.2)
      -- d: the candidate is invalid, only its first byte is removed
      else resync n h valid fuel rest

/-- One byte appended, then step 1: the length test (42_sync R192). -/
def feedByte (n : Nat) (h : Byte) (valid : List Byte → Bool) (buf : List Byte) (b : Byte) : List (List Byte) × List Byte :=
  if (buf ++ [b]).length < n then ([], buf ++ [b]) else resync n h valid (buf.length + 2) (buf ++ [b])

/-- Bytes fed one at a time, in order (42_sync R191): every frame emitted, and the buffer left. -/
def feedStream (n : Nat) (h : Byte) (valid : List Byte → Bool) : List Byte → List Byte → List (List Byte) × List Byte
  | buf, [] => ([], buf)
  | buf, b :: bs =>
    let r := feedByte n h valid buf b
    let q := feedStream n h valid r.2 bs
    (r.1 ++ q.1, q.2)

/-- The check the synchronizer applies: `valid_RXF` (42_sync R192, 00_scope R9). -/
def rxValid (s : State) (F : List Byte) : Bool := validFrame s.params (rxFormat s.variant) F

/-- The state with `RXBUF <- l` (10_state R55). -/
def setRxBuf (l : List Byte) (s : State) : State := { s with rxBuf := l }

/-- `feed1(b)` on RXBUF with the caller's `emit` (42_sync R192). -/
def feed1 (emit : List Byte → State → State) (b : Byte) (s : State) : State :=
  let r := feedByte (rxSize s) (rxHeader s) (rxValid s) s.rxBuf b
  r.1.foldl (fun t F => emit F t) (setRxBuf r.2 s)

/-- `feed1` for each byte in order; nothing for none (42_sync R191). -/
def feedAll (emit : List Byte → State → State) (bs : List Byte) (s : State) : State :=
  bs.foldl (fun t b => feed1 emit b t) s

/-- `emit(F)` of SYNC.FEED: a TELEMETRY event, and no liveness update (42_sync R195, 43_link R224). -/
def emitHost (F : List Byte) (s : State) : State := enqueue (.telemetry F) s

/-- `emit(F)` of a tick at time `t`: LAST_RX, then a TELEMETRY event (43_link R216, R217). -/
def emitTick (t : Time) (F : List Byte) (s : State) : State := enqueue (.telemetry F) { s with lastRx := t }

end Sys2Proof.Machine
end

