-- ==== Sys2Proof/Machine/Sync.lean ====
section
/-! DEFINITION. The synchronizer family: SYNC.FEED and SYNC.CLR, allowed while RUNNING = 0, else BUSY (42_sync R195, R196). -/

namespace Sys2Proof.Machine

/-- SYNC.FEED b (42_sync R195). -/
def execSyncFeed (b : Byte) (s : State) : Host.Outcome State Fault Refusal :=
  complete (if s.running then raise .busy s else raise .ok (feed1 emitHost b s))

/-- SYNC.CLR (42_sync R196). -/
def execSyncClr (s : State) : Host.Outcome State Fault Refusal :=
  complete (if s.running then raise .busy s else raise .ok { s with rxBuf := [] })

end Sys2Proof.Machine
end

