-- ==== Sys2Proof/Machine/Dispatch.lean ====
section
/-! DEFINITION. The meaning of each command, one arm per constructor of Instr (30_encoding R103). -/

namespace Sys2Proof.Machine

def exec (i : Instr) (s : State) : Host.Outcome State Fault Refusal :=
  match i with
  | .nop => Sys2Proof.Machine.execNop s
  | .crcInit => Sys2Proof.Machine.execCrcInit s
  | .crcByte b => Sys2Proof.Machine.execCrcByte b s
  | .crcBuf len => Sys2Proof.Machine.execCrcBuf len s
  | .ck8Init => Sys2Proof.Machine.execCk8Init s
  | .ck8Byte b => Sys2Proof.Machine.execCk8Byte b s
  | .ck8Buf len => Sys2Proof.Machine.execCk8Buf len s
  | .frmSeal f => Sys2Proof.Machine.execFrmSeal f s
  | .frmCheck f => Sys2Proof.Machine.execFrmCheck f s
  | .frmEncA => Sys2Proof.Machine.execFrmEncA s
  | .frmEncD => Sys2Proof.Machine.execFrmEncD s
  | .snapCommit => Sys2Proof.Machine.execSnapCommit s
  | .syncFeed b => Sys2Proof.Machine.execSyncFeed b s
  | .syncClr => Sys2Proof.Machine.execSyncClr s
  | .linkStart => Sys2Proof.Machine.execLinkStart s
  | .linkStop => Sys2Proof.Machine.execLinkStop s
  | .linkSend => Sys2Proof.Machine.execLinkSend s
  | .evqPop => Sys2Proof.Machine.execEvqPop s

end Sys2Proof.Machine
end

