-- ==== Sys2Proof/Machine/Engine.lean ====
section
/-! DEFINITION. The tick: transmit gate, receive, watchdog, in that order and with one sample of NOW (43_link R210 to R220). -/

namespace Sys2Proof.Machine

/-- Whether the gate fires at time `t`: variant A and t - LAST_TX ≥ T_TX, 64-bit unsigned (43_link R211, 40_checksum R154). -/
def gateFires (t : Time) (s : State) : Bool :=
  decide (s.variant = .a) && decide (s.tTx.setWidth 64 ≤ t - s.lastTx)

/-- The transmit gate at time `t` (43_link R212, R213): the incremented SEQ and A_AMMO go into the frame, A_AMMO is cleared, LAST_TX
becomes `t` whatever the write's outcome. -/
def transmitGate (t : Time) (s : State) : State :=
  if gateFires t s then
    { transportWrite (encA s (s.seq + 1#16) s.active.ammo)
        { s with seq := s.seq + 1#16, active := { s.active with ammo := 0#32 } } with
      lastTx := t }
  else s

/-- The receive phase at time `t` (43_link R216 to R219): nothing where TRX is empty, a counted error where the read fails, else the
bytes read go to the synchronizer. -/
def receive (t : Time) (s : State) : State :=
  match s.trx with
  | [] => s
  | _ :: _ =>
    match transportRead s with
    | (none, s') => countIoErr s'
    | (some bs, s') => feedAll (emitTick t) bs s'

/-- Whether the watchdog finds the link stale at time `t`: t - LAST_RX > T_WD, strictly (43_link R220, 40_checksum R154). -/
def watchdogExpired (t : Time) (s : State) : Bool := decide (s.tWd.setWidth 64 < t - s.lastRx)

/-- The watchdog phase at time `t` (43_link R220 to R222). -/
def watchdog (t : Time) (s : State) : State :=
  if watchdogExpired t s then enqueue .linkTimeout { s with link := .stale } else { s with link := .synced }

/-- One tick, enabled only while RUNNING = 1 (43_link R210; log entry 7). -/
def tick (s : State) : State :=
  if s.running then watchdog s.now (receive s.now (transmitGate s.now s)) else s

end Sys2Proof.Machine
end

