-- ==== Sys2Proof/Machine/Flags.lean ====
section
/-! DEFINITION. The flags and views the spec computes from the state: STATUS, RESULT, CTRL, EVQ_HEAD, EVDATA and the IRQ line
(10_state R32, R33, R36, R46, R54, R62). -/

namespace Sys2Proof.Machine

/-- The byte of a result code (60_exceptions R260). -/
def ResultCode.byte : ResultCode → Byte
  | .ok => 0x00#8
  | .checksumMismatch => 0x01#8
  | .malformedFrame => 0x02#8
  | .illegal => 0x03#8
  | .busy => 0x04#8
  | .notRunning => 0x05#8
  | .openFailure => 0x06#8
  | .empty => 0x07#8

/-- The value of CTRL.VARIANT (10_state R32). -/
def Variant.bits : Variant → BitVec 2
  | .a => 0#2
  | .b => 1#2

/-- The value of STATUS.LINK: 1 = SYNCED, 0 = STALE (10_state R33). -/
def LinkState.flag : LinkState → Bool
  | .stale => false
  | .synced => true

/-- The type code of an event (10_state R60). -/
def Event.typeCode : Event → BitVec 2
  | .telemetry _ => 0#2
  | .linkTimeout => 1#2
  | .connOpened => 2#2
  | .connClosed => 3#2

/-- REC of an event: a whole frame for TELEMETRY, else empty (10_state R60). -/
def Event.record : Event → List Byte
  | .telemetry frame => frame
  | .linkTimeout => []
  | .connOpened => []
  | .connClosed => []

/-- STATUS.EVQ_NE: 1 iff EVQ holds at least one event (10_state R33). -/
def evqNotEmpty (s : State) : Bool := !s.evq.isEmpty

/-- The level of the IRQ line, and STATUS.IRQ: EVQ_NE AND CTRL.IRQ_EN (10_state R62, 60_exceptions R266). -/
def irqLine (s : State) : Bool := evqNotEmpty s && s.irqEn

/-- CTRL as read: VARIANT in bits 1:0, IRQ_EN in bit 2 (10_state R32). -/
def ctrlWord (s : State) : Word := 0#29 ++ BitVec.ofBool s.irqEn ++ s.variant.bits

/-- STATUS as read, the highest field first (10_state R33). -/
def statusWord (s : State) : Word :=
  0#8 ++ BitVec.ofNat 8 s.rxBuf.length ++ BitVec.ofNat 8 s.evq.length ++ 0#2 ++ BitVec.ofBool (irqLine s)
    ++ BitVec.ofBool (evqNotEmpty s) ++ BitVec.ofBool s.evqOvf ++ BitVec.ofBool s.openFail ++ BitVec.ofBool s.link.flag
    ++ BitVec.ofBool s.running

/-- EVQ_HEAD as read: 0 for an empty queue, else VALID, LEN and TYPE of the head event (10_state R46). -/
def evqHeadWord (s : State) : Word :=
  match s.evq with
  | [] => 0#32
  | e :: _ => 1#1 ++ 0#15 ++ BitVec.ofNat 8 e.record.length ++ 0#6 ++ e.typeCode

/-- The record EVDATA shows: the head event's, or none of an empty queue (10_state R54). -/
def headRecord (s : State) : List Byte :=
  match s.evq with
  | [] => []
  | e :: _ => e.record

/-- EVDATA word k: bytes 4k to 4k+3 of the head event's record, a byte past its end reads 0 (10_state R54). -/
def evDataWord (k : Nat) (s : State) : Word :=
  packWord ((headRecord s).getD (4 * k) 0) ((headRecord s).getD (4 * k + 1) 0) ((headRecord s).getD (4 * k + 2) 0)
    ((headRecord s).getD (4 * k + 3) 0)

/-- FRAMEBUF word k: FB[4k] in bits 7:0 to FB[4k+3] in bits 31:24 (10_state R53). -/
def frameBufWord (k : Nat) (s : State) : Word :=
  packWord (s.fb (4 * k)) (s.fb (4 * k + 1)) (s.fb (4 * k + 2)) (s.fb (4 * k + 3))

end Sys2Proof.Machine
end

