-- ==== Sys2Proof/Machine/Window.lean ====
section
/-! DEFINITION. The register window (10_state R63, 20_memory R80 to R85): which register an offset names, what a read returns, what
a write of a register other than CMD does. -/

namespace Sys2Proof.Machine

/-- A field of a snapshot, in the order of the register map (10_state R48). -/
inductive SnapField where
  | mode | t0 | t1 | t2 | t3 | flags | manual | burst | ammo | dOp | dVal
  deriving DecidableEq, Repr

/-- What a word of the register window is (10_state R63). -/
inductive Register where
  | ctrl | status | cmd | result | crc | ck8 | seq | tTx | tWd | nowLo | nowHi | frameLen | ioErrCnt | evqHead | subIdA
  | staging (f : SnapField)
  | active (f : SnapField)
  | frameBuf (k : Nat)
  | evData (k : Nat)
  | unmapped
  deriving DecidableEq, Repr

/-- The field at a word of a snapshot block, by its offset from the block's base (10_state R48, R51). -/
def snapFieldAt (o : Nat) : Option SnapField :=
  match o with
  | 0x00 => some .mode
  | 0x04 => some .t0
  | 0x08 => some .t1
  | 0x0C => some .t2
  | 0x10 => some .t3
  | 0x14 => some .flags
  | 0x18 => some .manual
  | 0x1C => some .burst
  | 0x20 => some .ammo
  | 0x24 => some .dOp
  | 0x28 => some .dVal
  | _ => none

/-- The register map (10_state R63), for an offset that is a multiple of 4. -/
def registerAt (off : Offset) : Register :=
  let o := off.toNat
  if 0x200 ≤ o ∧ o < 0x300 then .evData ((o - 0x200) / 4)
  else if 0x100 ≤ o ∧ o < 0x200 then .frameBuf ((o - 0x100) / 4)
  else if 0x80 ≤ o ∧ o < 0x100 then ((snapFieldAt (o - 0x80)).map Register.active).getD .unmapped
  else if 0x40 ≤ o ∧ o < 0x80 then ((snapFieldAt (o - 0x40)).map Register.staging).getD .unmapped
  else
    match o with
    | 0x00 => .ctrl
    | 0x04 => .status
    | 0x08 => .cmd
    | 0x0C => .result
    | 0x10 => .crc
    | 0x14 => .ck8
    | 0x18 => .seq
    | 0x1C => .tTx
    | 0x20 => .tWd
    | 0x24 => .nowLo
    | 0x28 => .nowHi
    | 0x2C => .frameLen
    | 0x30 => .ioErrCnt
    | 0x34 => .evqHead
    | 0x38 => .subIdA
    | _ => .unmapped

/-- A snapshot field as a register reads it, zero-extended (10_state R48, R51). -/
def Snapshot.get (c : Snapshot) : SnapField → Word
  | .mode => c.mode.setWidth 32
  | .t0 => c.t0
  | .t1 => c.t1
  | .t2 => c.t2
  | .t3 => c.t3
  | .flags => c.flags.setWidth 32
  | .manual => c.manual.setWidth 32
  | .burst => c.burst.setWidth 32
  | .ammo => c.ammo
  | .dOp => c.dOp.setWidth 32
  | .dVal => c.dVal.setWidth 32

/-- A snapshot field written by a register write, truncated to its width (10_state R48). -/
def Snapshot.set (c : Snapshot) (f : SnapField) (v : Word) : Snapshot :=
  match f with
  | .mode => { c with mode := v.setWidth 8 }
  | .t0 => { c with t0 := v }
  | .t1 => { c with t1 := v }
  | .t2 => { c with t2 := v }
  | .t3 => { c with t3 := v }
  | .flags => { c with flags := v.setWidth 6 }
  | .manual => { c with manual := v.setWidth 8 }
  | .burst => { c with burst := v.setWidth 8 }
  | .ammo => { c with ammo := v }
  | .dOp => { c with dOp := v.setWidth 8 }
  | .dVal => { c with dVal := v.setWidth 16 }

/-- The value a read of a register returns (10_state R32 to R54). CMD and every unmapped offset read 0 (R35, 20_memory R83). -/
def readValue (r : Register) (s : State) : Word :=
  match r with
  | .ctrl => ctrlWord s
  | .status => statusWord s
  | .cmd => 0#32
  | .result => s.result.byte.setWidth 32
  | .crc => s.crc.setWidth 32
  | .ck8 => s.ck8.setWidth 32
  | .seq => s.seq.setWidth 32
  | .tTx => s.tTx
  | .tWd => s.tWd
  | .nowLo => s.now.extractLsb' 0 32
  | .nowHi => s.nowHiLatch
  | .frameLen => s.frameLen.setWidth 32
  | .ioErrCnt => s.ioErrCnt.setWidth 32
  | .evqHead => evqHeadWord s
  | .subIdA => s.subIdA.setWidth 32
  | .staging f => s.staging.get f
  | .active f => s.active.get f
  | .frameBuf k => frameBufWord k s
  | .evData k => evDataWord k s
  | .unmapped => 0#32

/-- A host read: the value goes to the host, and a read of NOW_LO latches NOW[63:32]; no other read has a side effect (20_memory R84,
10_state R43). -/
def hostRead (r : Register) (s : State) : State :=
  match r with
  | .nowLo => { s with busData := some (readValue .nowLo s), nowHiLatch := s.now.extractLsb' 32 32 }
  | other => { s with busData := some (readValue other s) }

/-- The variant that a written VARIANT value names, none for the reserved values 2 and 3 (10_state R32). -/
def variantOf (n : BitVec 2) : Option Variant :=
  if n = 0#2 then some .a else if n = 1#2 then some .b else none

/-- The variant after a write to CTRL: the written one if RUNNING = 0 and it is not reserved, else the current one (10_state R32). -/
def variantAfter (v : Word) (s : State) : Variant :=
  if s.running then s.variant else (variantOf (v.extractLsb' 0 2)).getD s.variant

/-- A write to CTRL: IRQ_EN always, VARIANT by its rule, and RXBUF emptied where VARIANT changes (10_state R32). -/
def writeCtrl (v : Word) (s : State) : State :=
  { s with
    irqEn := v.getLsbD 2, variant := variantAfter v s,
    rxBuf := if variantAfter v s = s.variant then s.rxBuf else [] }

/-- A write to STATUS clears OPEN_FAIL and EVQ_OVF where bits 2 and 3 of the written value are 1 (10_state R34). -/
def writeStatus (v : Word) (s : State) : State :=
  { s with openFail := s.openFail && !v.getLsbD 2, evqOvf := s.evqOvf && !v.getLsbD 3 }

/-- A host write of `v` to a register other than CMD (20_memory R85): its defined fields, and nothing for a read-only register, an
unmapped offset (20_memory R83) or SEQ while running (10_state R39). -/
def writeRegister (r : Register) (v : Word) (s : State) : State :=
  match r with
  | .ctrl => writeCtrl v s
  | .status => writeStatus v s
  | .cmd => s
  | .result => s
  | .crc => { s with crc := v.setWidth 16 }
  | .ck8 => { s with ck8 := v.setWidth 8 }
  | .seq => if s.running then s else { s with seq := v.setWidth 16 }
  | .tTx => { s with tTx := v }
  | .tWd => { s with tWd := v }
  | .nowLo => s
  | .nowHi => s
  | .frameLen => { s with frameLen := v.setWidth 8 }
  | .ioErrCnt => s
  | .evqHead => s
  | .subIdA => { s with subIdA := v.setWidth 8 }
  | .staging f => { s with staging := s.staging.set f v }
  | .active _ => s
  | .frameBuf k => putFb (4 * k) (le4 v) s
  | .evData _ => s
  | .unmapped => s

/-- The fault of a host access that is not an aligned 32-bit access (20_memory R81), none for one that is. -/
def accessFault (width : AccessWidth) (off : Offset) : Option Fault :=
  if width ≠ .word then some .narrowAccess
  else if off.extractLsb' 0 2 ≠ 0#2 then some .unalignedAccess
  else none

end Sys2Proof.Machine
end

