-- ==== Sys2Proof/Machine/Agents.lean ====
section
/-! DEFINITION. One step of each agent (00_scope R14, 20_memory R86), and which agent steps next. -/

namespace Sys2Proof.Machine

/-- The offset of CMD (10_state R35). -/
def cmdOffset : Offset := 0x008#12

/-- A write of `w` to CMD performs the command in the same step; a word that is no legal command raises ILLEGAL (10_state R35,
30_encoding R100 to R104). -/
def performCommand (w : Word) (s : State) : Host.Outcome State Fault Refusal :=
  match decode w with
  | .ok i => exec i s
  | .error _ => complete (raise .illegal s)

/-- An aligned 32-bit host write: CMD performs a command, any other register is written (20_memory R85). -/
def hostWrite (r : Register) (v : Word) (s : State) : Host.Outcome State Fault Refusal :=
  match r with
  | .cmd => performCommand v s
  | other => complete (writeRegister other v s)

/-- The timebase reaches `t`; NOW never decreases (10_state R42; log entries 6, 7). -/
def advanceTime (t : Time) (s : State) : State := if s.now ≤ t then { s with now := t } else s

/-- One step of one agent (00_scope R14). A step that is not enabled changes nothing (log entry 7). -/
def agentStep (a : AgentStep) (s : State) : Host.Outcome State Fault Refusal :=
  match a with
  | .time t => complete (advanceTime t s)
  | .tick => complete (tick s)
  | .rx bs => complete (transportArrive bs s)
  | .read width off =>
    match accessFault width off with
    | some f => .fault f
    | none => complete (hostRead (registerAt off) s)
  | .write width off v =>
    match accessFault width off with
    | some f => .fault f
    | none => hostWrite (registerAt off) v s
  | .drawOpen o => complete { s with openDraw := some o }
  | .drawWrite o => complete { s with writeDraw := some o }
  | .drawRead o => complete { s with readDraw := some o }
  | .reset => complete (resetBlock s)

/-- Which agent steps next: the head of the agenda, or a free choice where the agenda is empty (00_scope R14; log entry 1). -/
def chosenStep (s : State) : AgentStep :=
  match s.agenda with
  | [] => Config.freeAgent s.drawCount
  | a :: _ => a

/-- The state the chosen agent steps from: its entry is off the agenda and the draw number is a fresh one. -/
def afterChoice (s : State) : State :=
  { s with agenda := s.agenda.tail, drawCount := s.drawCount + 1 }

/-- The state with the host's write of `w` to CMD as the very next agent step (10_state R35; log entry 2). -/
def scheduleCommand (w : Word) (s : State) : State :=
  { s with agenda := .write .word cmdOffset w :: s.agenda }

end Sys2Proof.Machine
end

