-- ==== Sys2Proof/Machine/Step.lean ====
section
/-! DEFINITION. One step of the machine: one atomic step of one agent (20_memory R86). -/

namespace Sys2Proof.Machine

/-- The chosen agent takes its step. -/
def step (s : State) : Host.Outcome State Fault Refusal := agentStep (chosenStep s) (afterChoice s)

/-- `s` with the command word `w` about to be issued: NEO-LINK fetches nothing (20_memory R90), the host writes the word to CMD, and
that write is the next agent step (log entry 2). Bits of `w` at `nbits` and above are 0. -/
def State.withFetchWord (s : State) (nbits w : Nat) : State :=
  scheduleCommand (BitVec.ofNat 32 (w % 2 ^ nbits)) s

end Sys2Proof.Machine
end

