-- ==== Sys2Proof/Machine/Program.lean ====
section
/-! DEFINITION. Test programs as agent steps: the statements and annotations of 30_encoding R106, the pseudo-instructions of R107,
and the run of such a program (70_reset_and_hazards R315, R316). The text syntax itself is not parsed (log entry 22). -/

namespace Sys2Proof.Machine

/-- The offset of a field from the base of its snapshot block (10_state R48, R51). -/
def snapFieldOffset : SnapField → Nat
  | .mode => 0x00
  | .t0 => 0x04
  | .t1 => 0x08
  | .t2 => 0x0C
  | .t3 => 0x10
  | .flags => 0x14
  | .manual => 0x18
  | .burst => 0x1C
  | .ammo => 0x20
  | .dOp => 0x24
  | .dVal => 0x28

/-- The offset of a register, the inverse of `registerAt` on mapped words (10_state R63). An unmapped word has no one offset; 0xFFC
is one that is unmapped. -/
def registerOffset : Register → Offset
  | .ctrl => 0x000#12
  | .status => 0x004#12
  | .cmd => 0x008#12
  | .result => 0x00C#12
  | .crc => 0x010#12
  | .ck8 => 0x014#12
  | .seq => 0x018#12
  | .tTx => 0x01C#12
  | .tWd => 0x020#12
  | .nowLo => 0x024#12
  | .nowHi => 0x028#12
  | .frameLen => 0x02C#12
  | .ioErrCnt => 0x030#12
  | .evqHead => 0x034#12
  | .subIdA => 0x038#12
  | .staging f => BitVec.ofNat 12 (0x40 + snapFieldOffset f)
  | .active f => BitVec.ofNat 12 (0x80 + snapFieldOffset f)
  | .frameBuf k => BitVec.ofNat 12 (0x100 + 4 * k)
  | .evData k => BitVec.ofNat 12 (0x200 + 4 * k)
  | .unmapped => 0xFFC#12

/-- `WR <reg>, v` (30_encoding R106). -/
def wr (r : Register) (v : Word) : AgentStep := .write .word (registerOffset r) v

/-- `RD <reg>` (30_encoding R106). -/
def rd (r : Register) : AgentStep := .read .word (registerOffset r)

/-- `<MNEMONIC> [<operand>]`: the command word written to CMD (30_encoding R106). -/
def command (i : Instr) : AgentStep := .write .word cmdOffset (encode i)

/-- `@tick t=<n>`: one tick with NOW = n (30_encoding R106). -/
def tickAt (t : Time) : List AgentStep := [.time t, .tick]

/-- The draws of a test program without `@draw`: open=OK, write=OK, read=ALL (30_encoding R106). -/
def defaultDraws : List AgentStep := [.drawOpen .ok, .drawWrite .ok, .drawRead .all]

/-- A pseudo-instruction (30_encoding R107). -/
inductive Pseudo where
  | crcBytes (bs : List Byte)
  | crcOf (bs : List Byte)
  | ck8Bytes (bs : List Byte)
  | ck8Of (bs : List Byte)
  | syncFeeds (bs : List Byte)
  | fbLoad (bs : List Byte)
  | snapSet (f : SnapField) (v : Word)
  deriving DecidableEq, Repr

/-- The writes of `FB.LOAD`: word k from bytes 4k to 4k+3, a missing byte is 0 (30_encoding R107). -/
def fbLoadWords (bs : List Byte) : List AgentStep :=
  (List.range ((bs.length + 3) / 4)).map fun k =>
    wr (.frameBuf k) (packWord (bs.getD (4 * k) 0) (bs.getD (4 * k + 1) 0) (bs.getD (4 * k + 2) 0) (bs.getD (4 * k + 3) 0))

/-- The expansion of a pseudo-instruction (30_encoding R107). -/
def expand : Pseudo → List AgentStep
  | .crcBytes bs => bs.map fun b => command (.crcByte b)
  | .crcOf bs => command .crcInit :: bs.map fun b => command (.crcByte b)
  | .ck8Bytes bs => bs.map fun b => command (.ck8Byte b)
  | .ck8Of bs => command .ck8Init :: bs.map fun b => command (.ck8Byte b)
  | .syncFeeds bs => bs.map fun b => command (.syncFeed b)
  | .fbLoad bs => fbLoadWords bs ++ [wr .frameLen (BitVec.ofNat 32 bs.length)]
  | .snapSet f v => [wr (.staging f) v]

/-- A run of a program: its agent steps in order, each a step of the machine, up to the last or the first stop
(70_reset_and_hazards R316). -/
def runProgram : List AgentStep → State → Host.Outcome State Fault Refusal
  | [], s => .next s
  | a :: rest, s =>
    match step { s with agenda := a :: s.agenda } with
    | .next s' => runProgram rest s'
    | .fault f => .fault f
    | .refused r => .refused r

end Sys2Proof.Machine
end

