-- ==== Sys2Proof/Safety.lean ====
section
/-! DEFINITION. What counts as a sound state and as a right output, in the terms the claims use. -/

namespace Sys2Proof.Machine

/-- A telemetry record is a verified frame of one of the two receive formats, header first (10_state R60, 00_scope R9). -/
def TelemetryOk (p : Params) (F : List Byte) : Prop :=
  (validFrame p .B F = true ∧ F.head? = some (header .B)) ∨ (validFrame p .C F = true ∧ F.head? = some (header .C))

/-- An event of the queue is sound: a TELEMETRY event carries a verified frame, the others carry nothing (10_state R60). -/
def EventOk (p : Params) : Event → Prop
  | .telemetry F => TelemetryOk p F
  | .linkTimeout => True
  | .connOpened => True
  | .connClosed => True

/-- What every state of a run satisfies. -/
structure Inv (s : State) : Prop where
  /-- FRAMEBUF keeps its canonical form. -/
  frameBuf : Memory.wf s.frameBuf = true
  /-- Between steps RXBUF is shorter than a frame (42_sync R194). -/
  rxBuf : s.rxBuf.length < rxSize s
  /-- EVQ holds at most EVQ_DEPTH events (10_state R60). -/
  evqBound : s.evq.length ≤ s.params.evqDepth
  /-- Every queued event is sound. -/
  evqEvents : ∀ e ∈ s.evq, EventOk s.params e
  /-- While stopped, LINK is STALE (43_link R230, D12). -/
  stoppedLink : s.running = false → s.link = .stale
  /-- While closed, TRX is empty (43_link R254). -/
  stoppedTrx : s.running = false → s.trx = []
  /-- LAST_TX is a past sample of NOW (43_link R211, 40_checksum R154). -/
  lastTx : s.lastTx ≤ s.now
  /-- LAST_RX is a past sample of NOW (40_checksum R154). -/
  lastRx : s.lastRx ≤ s.now

/-- The scan of 42_sync R197 over a whole stream, from position 0: the leftmost windows of `n` bytes that do not overlap, start with
the header and pass the check. The number bounds the positions still to look at, `S.length` of them at first. -/
def scan (n : Nat) (h : Byte) (valid : List Byte → Bool) : Nat → List Byte → List (List Byte)
  | 0, _ => []
  | k + 1, S =>
    if S.length < n then []
    else if S.head? = some h ∧ valid (S.take n) = true then S.take n :: scan n h valid k (S.drop n)
    else scan n h valid k (S.drop 1)

/-- The frames 42_sync R197 finds in a stream. -/
def scanFrames (n : Nat) (h : Byte) (valid : List Byte → Bool) (S : List Byte) : List (List Byte) :=
  scan n h valid S.length S

/-- The premise TICK_FAIR of liveness claims (70_reset_and_hazards R313): along the run of the agent steps from `s`, while
RUNNING = 1, NOW never passes the time `since` of the last tick (or of the start) by more than `tickMax`. It is no rule of the
block. -/
def tickFair (tickMax : Nat) : List AgentStep → Nat → State → Bool
  | [], _, _ => true
  | a :: rest, since, s =>
    match runProgram [a] s with
    | .next s' =>
      let since' := if a = .tick ∨ s.running = false then s'.now.toNat else since
      (!s'.running || decide (s'.now.toNat ≤ since' + tickMax)) && tickFair tickMax rest since' s'
    | .fault _ => true
    | .refused _ => true

end Sys2Proof.Machine
end

