-- ==== Sys2Proof/Certificates/Slice0/Obligations.lean ====
section
/-! DEFINITION. The statements for the provers, each formalising rules of spec/ (OBLIGATIONS.json names them). A next state given as a
record update of `s` also says the frame: every field the update does not name is unchanged. -/

namespace Sys2Proof.Claims

open Sys2Proof.Machine

/-- `FB[0 .. n-1]`, byte by byte. -/
def fbList (s : State) (n : Nat) : List Byte := (List.range n).map s.fb

/-- The legal command words of 30_encoding R101 to R103, written from its tables: top byte zero, and an OP whose form IMM obeys. -/
def LegalWord (w : Word) : Prop :=
  w.extractLsb' 24 8 = 0#8 ∧
    ((w.extractLsb' 0 8 ∈ [0x00#8, 0x01#8, 0x04#8, 0x12#8, 0x13#8, 0x14#8, 0x21#8, 0x30#8, 0x31#8, 0x32#8, 0x40#8] ∧
        w.extractLsb' 8 16 = 0#16) ∨
      (w.extractLsb' 0 8 ∈ [0x02#8, 0x05#8, 0x20#8] ∧ w.extractLsb' 16 8 = 0#8) ∨
      (w.extractLsb' 0 8 ∈ [0x03#8, 0x06#8] ∧ (w.extractLsb' 8 16).toNat ≤ 256) ∨
      (w.extractLsb' 0 8 ∈ [0x10#8, 0x11#8] ∧ w.extractLsb' 10 14 = 0#14))

/-- The reserved OP values as 30_encoding R104 lists them. -/
def ReservedOp (op : Nat) : Prop :=
  (0x07 ≤ op ∧ op ≤ 0x0F) ∨ (0x15 ≤ op ∧ op ≤ 0x1F) ∨ (0x22 ≤ op ∧ op ≤ 0x2F) ∨ (0x33 ≤ op ∧ op ≤ 0x3F) ∨
    (0x41 ≤ op ∧ op ≤ 0xFF)

/-- The host is about to write `w` to CMD, offset 0x008, and `rest` comes after. -/
def IssuesCommand (s : State) (w : Word) (rest : List AgentStep) : Prop :=
  s.agenda = .write .word 0x008#12 w :: rest

/-- Every word with this OP, a zero top byte and an IMM that is `bad` raises ILLEGAL and changes nothing else. -/
def IllegalWhere (op : Byte) (bad : Half → Prop) : Prop :=
  ∀ (w : Word) (s : State), w.extractLsb' 24 8 = 0#8 → w.extractLsb' 0 8 = op → bad (w.extractLsb' 8 16) →
    performCommand w s = .next { s with result := .illegal }

/-- The byte with bit k flipped, and a sequence with bit k of byte i flipped. -/
def flipBit (b : Byte) (k : Nat) : Byte := b ^^^ (1#8 <<< k)

/-- The sequence with bit `k` of byte `i` flipped. -/
def flipAt (bs : List Byte) (i k : Nat) : List Byte := bs.modify i (fun b => flipBit b k)

/-- One round of `crc_step` on a register wider than 16 bits, with no masking: the test still reads bit 15 (40_checksum R142). -/
def unmaskedRound (r : Word) : Word := if r.getLsbD 15 then (r <<< 1) ^^^ 0x1021#32 else r <<< 1

/-- `n` rounds without masking. -/
def unmaskedRounds : Nat → Word → Word
  | 0, r => r
  | n + 1, r => unmaskedRounds n (unmaskedRound r)

/-- The gate's condition in state `s` at its own NOW (43_link R211). -/
def GateFires (s : State) : Prop := s.variant = .a ∧ s.tTx.setWidth 64 ≤ s.now - s.lastTx

/-- The events a step added at the tail of the queue. -/
def newEvents (s t : State) : List Event := t.evq.drop s.evq.length

/-- The bits a staging register holds (10_state R48). -/
def snapMask : SnapField → Word
  | .mode => 0x000000FF#32
  | .t0 => 0xFFFFFFFF#32
  | .t1 => 0xFFFFFFFF#32
  | .t2 => 0xFFFFFFFF#32
  | .t3 => 0xFFFFFFFF#32
  | .flags => 0x0000003F#32
  | .manual => 0x000000FF#32
  | .burst => 0x000000FF#32
  | .ammo => 0xFFFFFFFF#32
  | .dOp => 0x000000FF#32
  | .dVal => 0x0000FFFF#32

/-- The offset of a staging register, as 10_state R48 tables it; the active mirror stands 0x40 above (R51). -/
def stagingOffset : SnapField → Nat
  | .mode => 0x040
  | .t0 => 0x044
  | .t1 => 0x048
  | .t2 => 0x04C
  | .t3 => 0x050
  | .flags => 0x054
  | .manual => 0x058
  | .burst => 0x05C
  | .ammo => 0x060
  | .dOp => 0x064
  | .dVal => 0x068

/-- The word offsets that 10_state R63 does not list. -/
def UnmappedOffset (o : Nat) : Prop :=
  o % 4 = 0 ∧ (o = 0x03C ∨ (0x06C ≤ o ∧ o < 0x080) ∨ (0x0AC ≤ o ∧ o < 0x100) ∨ (0x300 ≤ o ∧ o < 0x1000))

/-- The word offsets that 10_state R63 lists as read-only (RO). -/
def ReadOnlyOffset (o : Nat) : Prop :=
  o % 4 = 0 ∧ (o = 0x00C ∨ o = 0x024 ∨ o = 0x028 ∨ o = 0x030 ∨ o = 0x034 ∨ (0x080 ≤ o ∧ o < 0x0AC) ∨ (0x200 ≤ o ∧ o < 0x300))

/-- A host access that is not an aligned 32-bit access (20_memory R81). -/
def BadAccess (width : AccessWidth) (off : Offset) : Prop := width ≠ .word ∨ off.toNat % 4 ≠ 0

/-- The source's `feed(bytes)` on a whole chunk (42_sync R192, R199): appended at once, then the same loop. -/
def feedChunk (n : Nat) (h : Byte) (valid : List Byte → Bool) (buf chunk : List Byte) : List (List Byte) × List Byte :=
  if (buf ++ chunk).length < n then ([], buf ++ chunk) else resync n h valid ((buf ++ chunk).length + 1) (buf ++ chunk)

/-- Chunks fed one after the other, in order. -/
def feedChunks (n : Nat) (h : Byte) (valid : List Byte → Bool) : List Byte → List (List Byte) → List (List Byte)
  | _, [] => []
  | buf, chunk :: rest =>
    (feedChunk n h valid buf chunk).1 ++ feedChunks n h valid (feedChunk n h valid buf chunk).2 rest

/-- The bytes a read that ends OK delivers in state `s`, none for a read that fails (43_link R253). -/
def bytesRead (s : State) : Option (List Byte) :=
  match readOutcome s with
  | .all => some s.trx
  | .take k => some (s.trx.take k)
  | .err => none

/-- What the synchronizer makes of `bs` in state `s`: the frames, and the buffer left (42_sync R191, R192). -/
def synchronized (s : State) (bs : List Byte) : List (List Byte) × List Byte :=
  feedStream (rxSize s) (rxHeader s) (validFrame s.params (rxFormat s.variant)) s.rxBuf bs

/-- What the host and its commands use and no tick does, put into a state (10_state R37, R38, R48, R53, 70_reset_and_hazards R308). -/
def withScratch (m : Memory) (len : Byte) (c : Half) (k : Byte) (g : Snapshot) (r : ResultCode) (s : State) : State :=
  { s with frameBuf := m, frameLen := len, crc := c, ck8 := k, staging := g, result := r }

end Sys2Proof.Claims

open Sys2Proof Sys2Proof.Machine Sys2Proof.Claims

/-! ### Encoding (30_encoding) -/

/-- Decoding a well-formed command's word gives the command back, with every operand (30_encoding R100, R102, R103, R105). -/
def Obligations.DecodeEncodeRoundTrip : Prop :=
  ∀ i : Instr, WellFormed i = true → decode (encode i) = .ok i

/-- A word that decodes is the word of the command it decodes to, so no bit of a legal word is dropped, no two legal words mean the
same, and what decodes is well formed. -/
def Obligations.EncodeInvertsDecode : Prop :=
  ∀ (w : Word) (i : Instr), decode w = .ok i → encode i = w ∧ WellFormed i = true

/-- R105, an inference of the spec from R100 and R103: the word value of a command, and R105's five examples, both ways. -/
def Obligations.CommandWordValues : Prop :=
  (∀ i : Instr, encode i = (opcode i).setWidth 32 ||| ((immediate i).setWidth 32 <<< 8)) ∧
    (encode (.crcByte 0x31#8) = 0x00003102#32 ∧ decode 0x00003102#32 = .ok (.crcByte 0x31#8)) ∧
    (encode (.crcBuf 33#16) = 0x00002103#32 ∧ decode 0x00002103#32 = .ok (.crcBuf 33#16)) ∧
    (encode (.frmCheck .C) = 0x00000211#32 ∧ decode 0x00000211#32 = .ok (.frmCheck .C)) ∧
    (encode (.syncFeed 0xA5#8) = 0x0000A520#32 ∧ decode 0x0000A520#32 = .ok (.syncFeed 0xA5#8)) ∧
    (encode .linkStart = 0x00000030#32 ∧ decode 0x00000030#32 = .ok .linkStart)

/-- A word decodes exactly if it obeys 30_encoding R101 to R104 as their tables are written. -/
def Obligations.DecodeAcceptsExactlyLegalWords : Prop :=
  ∀ w : Word, (∃ i, decode w = .ok i) ↔ LegalWord w

/-- R101, R104 (and R102): a host write of an illegal word to CMD writes RESULT <- ILLEGAL and changes nothing else; R104's list of
reserved OP values is the complement of the opcode map. -/
def Obligations.IllegalWordRaisesIllegal : Prop :=
  (∀ (s : State) (w : Word) (rest : List AgentStep), IssuesCommand s w rest →
      (w.extractLsb' 24 8 ≠ 0#8 ∨ ReservedOp (w.extractLsb' 0 8).toNat ∨ ¬ LegalWord w) →
      step s = .next { s with result := .illegal, agenda := rest, drawCount := s.drawCount + 1 }) ∧
    ∀ op : Byte, ReservedOp op.toNat ↔
      op ∉ [0x00#8, 0x01#8, 0x02#8, 0x03#8, 0x04#8, 0x05#8, 0x06#8, 0x10#8, 0x11#8, 0x12#8, 0x13#8, 0x14#8, 0x20#8, 0x21#8,
        0x30#8, 0x31#8, 0x32#8, 0x40#8]

/-- R35: where the host writes a word that decodes to `i` to CMD, the step is `exec i`, inside that same step; a read of CMD returns
0. Around `exec` the step takes the entry off the agenda and advances the model's draw number (log entries 1, 3). -/
def Obligations.CommandRunsInsideWriteStep : Prop :=
  (∀ (s : State) (w : Word) (rest : List AgentStep) (i : Instr), IssuesCommand s w rest → decode w = .ok i →
      step s = exec i { s with agenda := rest, drawCount := s.drawCount + 1 }) ∧
    ∀ (s : State) (rest : List AgentStep), s.agenda = .read .word 0x008#12 :: rest →
      step s = .next { s with agenda := rest, drawCount := s.drawCount + 1, busData := some 0#32 }

/-! ### The integrity functions (40_checksum) -/

/-- R145: the check values of "123456789", and the values of the empty sequence (R141, R143). -/
def Obligations.ChecksumCheckValues : Prop :=
  crc16 [0x31#8, 0x32#8, 0x33#8, 0x34#8, 0x35#8, 0x36#8, 0x37#8, 0x38#8, 0x39#8] = 0x29B1#16 ∧
    checksum8 [0x31#8, 0x32#8, 0x33#8, 0x34#8, 0x35#8, 0x36#8, 0x37#8, 0x38#8, 0x39#8] = 0xDD#8 ∧
    crc16 [] = 0xFFFF#16 ∧ checksum8 [] = 0x00#8

/-- R142, an inference of the spec from R140: masking to 16 bits once after the 8 rounds of a byte gives the value that masking after every round gives. -/
def Obligations.MaskingOncePerByteAgrees : Prop :=
  ∀ (c : Half) (b : Byte),
    (unmaskedRounds 8 (c.setWidth 32 ^^^ (b.setWidth 32 <<< 8))).setWidth 16 = crcStep c b

/-- R144, an inference of the spec from R141 and R143: a single-bit change of the input changes checksum8 and crc16, and a valid frame of any format with one bit flipped, in its
payload or its trailer, fails its check. -/
def Obligations.SingleBitFlipIsDetected : Prop :=
  (∀ (bs : List Byte) (i k : Nat), i < bs.length → k < 8 →
      checksum8 (flipAt bs i k) ≠ checksum8 bs ∧ crc16 (flipAt bs i k) ≠ crc16 bs) ∧
    ∀ (p : Params) (f : Format) (F : List Byte) (i k : Nat), validFrame p f F = true → i < F.length → k < 8 →
      validFrame p f (flipAt F i k) = false

/-- R143: checksum8 is the arithmetic sum of the bytes modulo 256. -/
def Obligations.Checksum8IsSumModulo256 : Prop :=
  ∀ bs : List Byte, (checksum8 bs).toNat = (bs.map BitVec.toNat).sum % 256

/-! ### The checksum family -/

/-- R147, CRC.INIT. -/
def Obligations.CrcInitSetsInitialValue : Prop :=
  encode .crcInit = 0x00000001#32 ∧
    (∀ s : State, exec .crcInit s = .next { s with crc := 0xFFFF#16, result := .ok }) ∧
    IllegalWhere 0x01#8 (fun imm => imm ≠ 0#16)

/-- R148, CRC.BYTE, with its corner cases and its example. -/
def Obligations.CrcByteFoldsOneByte : Prop :=
  (∀ b : Byte, encode (.crcByte b) = 0x00000002#32 ||| (b.setWidth 32 <<< 8)) ∧
    (∀ (b : Byte) (s : State), exec (.crcByte b) s = .next { s with crc := crcStep s.crc b, result := .ok }) ∧
    IllegalWhere 0x02#8 (fun imm => imm.extractLsb' 8 8 ≠ 0#8) ∧
    crcStep 0x0000#16 0x00#8 = 0x0000#16 ∧ crcStep 0x8000#16 0x00#8 = 0x9188#16 ∧ crcStep 0xFFFF#16 0x31#8 = 0xC782#16

/-- R149, CRC.BUF: the bytes FB[0 .. len-1] folded from the current CRC; from the initial value this is crc16 of them; a length above
256 is ILLEGAL, as a word and as a term. -/
def Obligations.CrcBufFoldsFrameBuf : Prop :=
  (∀ len : Half, encode (.crcBuf len) = 0x00000003#32 ||| (len.setWidth 32 <<< 8)) ∧
    (∀ (len : Half) (s : State), len.toNat ≤ 256 →
      exec (.crcBuf len) s = .next { s with crc := (fbList s len.toNat).foldl crcStep s.crc, result := .ok }) ∧
    (∀ (len : Half) (s : State), len.toNat ≤ 256 →
      exec (.crcBuf len) { s with crc := 0xFFFF#16 } = .next { s with crc := crc16 (fbList s len.toNat), result := .ok }) ∧
    (∀ (len : Half) (s : State), 256 < len.toNat → exec (.crcBuf len) s = .next { s with result := .illegal }) ∧
    IllegalWhere 0x03#8 (fun imm => 256 < imm.toNat)

/-- R150, CK8.INIT. -/
def Obligations.Ck8InitClearsSum : Prop :=
  encode .ck8Init = 0x00000004#32 ∧
    (∀ s : State, exec .ck8Init s = .next { s with ck8 := 0x00#8, result := .ok }) ∧
    IllegalWhere 0x04#8 (fun imm => imm ≠ 0#16)

/-- R151, CK8.BYTE: the sum in 9 bits, truncated to 8, so the carry is dropped. -/
def Obligations.Ck8ByteAddsModulo256 : Prop :=
  (∀ b : Byte, encode (.ck8Byte b) = 0x00000005#32 ||| (b.setWidth 32 <<< 8)) ∧
    (∀ (b : Byte) (s : State),
      exec (.ck8Byte b) s = .next { s with ck8 := (s.ck8.setWidth 9 + b.setWidth 9).setWidth 8, result := .ok }) ∧
    IllegalWhere 0x05#8 (fun imm => imm.extractLsb' 8 8 ≠ 0#8)

/-- R152, CK8.BUF: the bytes FB[0 .. len-1] added to the current CK8; from 0 this is checksum8 of them; a length above 256 is
ILLEGAL, as a word and as a term. -/
def Obligations.Ck8BufSumsFrameBuf : Prop :=
  (∀ len : Half, encode (.ck8Buf len) = 0x00000006#32 ||| (len.setWidth 32 <<< 8)) ∧
    (∀ (len : Half) (s : State), len.toNat ≤ 256 →
      ∃ t, exec (.ck8Buf len) s = .next t ∧ t = { s with ck8 := t.ck8, result := .ok } ∧
        t.ck8.toNat = (s.ck8.toNat + ((fbList s len.toNat).map BitVec.toNat).sum) % 256) ∧
    (∀ (len : Half) (s : State), len.toNat ≤ 256 →
      exec (.ck8Buf len) { s with ck8 := 0x00#8 } = .next { s with ck8 := checksum8 (fbList s len.toNat), result := .ok }) ∧
    (∀ (len : Half) (s : State), 256 < len.toNat → exec (.ck8Buf len) s = .next { s with result := .illegal }) ∧
    IllegalWhere 0x06#8 (fun imm => 256 < imm.toNat)

/-! ### The codec family (41_codec) -/

/-- R161, FRM.SEAL: the trailer bytes over every byte before them, FRAMELEN and RESULT; every other byte of FRAMEBUF is unchanged. -/
def Obligations.FrmSealWritesTrailer : Prop :=
  (∀ f : Format, encode (.frmSeal f) = 0x00000010#32 ||| ((formatNumber f).setWidth 32 <<< 8)) ∧
    (∀ (f : Format) (s : State), ∃ t, exec (.frmSeal f) s = .next t ∧
      t = { s with frameBuf := t.frameBuf, frameLen := BitVec.ofNat 8 (frameSize s.params f), result := .ok } ∧
      t.frameLen.toNat = frameSize s.params f ∧
      (∀ i, i < sealIndex f s ∨ sealIndex f s + (sealBytes f s).length ≤ i → t.fb i = s.fb i) ∧
      (f = .A ∨ f = .B →
        sealIndex f s = frameSize s.params f - 2 ∧ (sealBytes f s).length = 2 ∧
        t.fb (frameSize s.params f - 2) = (crc16 (fbList s (frameSize s.params f - 2))).extractLsb' 0 8 ∧
        t.fb (frameSize s.params f - 1) = (crc16 (fbList s (frameSize s.params f - 2))).extractLsb' 8 8) ∧
      (f = .C ∨ f = .D →
        sealIndex f s = frameSize s.params f - 1 ∧ (sealBytes f s).length = 1 ∧
        t.fb (frameSize s.params f - 1) = checksum8 (fbList s (frameSize s.params f - 1)))) ∧
    IllegalWhere 0x10#8 (fun imm => imm.extractLsb' 2 14 ≠ 0#14)

/-- R162, FRM.CHECK: the length is checked before the trailer, only RESULT is written, the header is not looked at. -/
def Obligations.FrmCheckReportsFrame : Prop :=
  (∀ f : Format, encode (.frmCheck f) = 0x00000011#32 ||| ((formatNumber f).setWidth 32 <<< 8)) ∧
    (∀ (f : Format) (s : State), s.frameLen.toNat ≠ frameSize s.params f →
      exec (.frmCheck f) s = .next { s with result := .malformedFrame }) ∧
    (∀ (f : Format) (s : State), s.frameLen.toNat = frameSize s.params f →
      validFrame s.params f (fbList s (frameSize s.params f)) = false →
      exec (.frmCheck f) s = .next { s with result := .checksumMismatch }) ∧
    (∀ (f : Format) (s : State), s.frameLen.toNat = frameSize s.params f →
      validFrame s.params f (fbList s (frameSize s.params f)) = true → exec (.frmCheck f) s = .next { s with result := .ok }) ∧
    (∀ p : Params, validFrame p .C (List.replicate 20 0x00#8) = true ∧ validFrame p .D (List.replicate 5 0x00#8) = true ∧
      validFrame p .A (List.replicate 35 0x00#8) = false) ∧
    IllegalWhere 0x11#8 (fun imm => imm.extractLsb' 2 14 ≠ 0#14)

/-- R163, FRM.ENCA: FB[0 .. 34], FRAMELEN and RESULT; FB[35 .. 255], SEQ and A_AMMO are unchanged. -/
def Obligations.FrmEncAWritesFrame : Prop :=
  encode .frmEncA = 0x00000012#32 ∧
    (∀ s : State, ∃ t, exec .frmEncA s = .next t ∧
      t = { s with frameBuf := t.frameBuf, frameLen := 35#8, result := .ok } ∧
      (∀ i, i < 35 → t.fb i = (encA s s.seq s.active.ammo).getD i 0x00#8) ∧ ∀ i, 35 ≤ i → t.fb i = s.fb i) ∧
    IllegalWhere 0x12#8 (fun imm => imm ≠ 0#16)

/-- R164, FRM.ENCD: FB[0 .. 4], FRAMELEN and RESULT; FB[5 .. 255] are unchanged. -/
def Obligations.FrmEncDWritesFrame : Prop :=
  encode .frmEncD = 0x00000013#32 ∧
    (∀ s : State, ∃ t, exec .frmEncD s = .next t ∧
      t = { s with frameBuf := t.frameBuf, frameLen := 5#8, result := .ok } ∧
      (∀ i, i < 5 → t.fb i = (encD s).getD i 0x00#8) ∧ ∀ i, 5 ≤ i → t.fb i = s.fb i) ∧
    IllegalWhere 0x13#8 (fun imm => imm ≠ 0#16)

/-- R168, SNAP.COMMIT, field by field. -/
def Obligations.SnapCommitCopiesStaging : Prop :=
  encode .snapCommit = 0x00000014#32 ∧
    (∀ s : State, exec .snapCommit s = .next
      { s with
        active :=
          { mode := s.staging.mode, t0 := s.staging.t0, t1 := s.staging.t1, t2 := s.staging.t2, t3 := s.staging.t3,
            flags := s.staging.flags, manual := s.staging.manual, burst := s.staging.burst,
            ammo := if s.staging.ammo = 0#32 then s.active.ammo else s.staging.ammo,
            dOp := s.staging.dOp, dVal := s.staging.dVal },
        staging := { s.staging with ammo := 0#32 }, result := .ok }) ∧
    IllegalWhere 0x14#8 (fun imm => imm ≠ 0#16)

/-- R120 and R124: every row of the two layout tables, for a frame as the encoder writes it. -/
def Obligations.EncodedFrameLayouts : Prop :=
  (∀ (s : State) (q : Half) (m : Word) (F : List Byte), F = encA s q m →
      F.length = 35 ∧ F.getD 0 0#8 = 0xA5#8 ∧ F.getD 1 0#8 = s.subIdA ∧ (F.drop 2).take 2 = le2 q ∧
        F.getD 4 0#8 = s.active.mode ∧ (F.drop 5).take 4 = le4 s.active.t0 ∧ (F.drop 9).take 4 = le4 s.active.t1 ∧
        (F.drop 13).take 4 = le4 s.active.t2 ∧ (F.drop 17).take 4 = le4 s.active.t3 ∧
        F.getD 21 0#8 = (if s.active.flags.getLsbD 0 then 0x01#8 else 0x00#8) ∧
        F.getD 22 0#8 = (if s.active.flags.getLsbD 1 then 0x01#8 else 0x00#8) ∧
        F.getD 23 0#8 = (if s.active.flags.getLsbD 2 then 0x01#8 else 0x00#8) ∧
        F.getD 24 0#8 = s.active.manual ∧ F.getD 25 0#8 = s.active.burst ∧ (F.drop 26).take 4 = le4 m ∧
        F.getD 30 0#8 = (if s.active.flags.getLsbD 3 then 0x01#8 else 0x00#8) ∧
        F.getD 31 0#8 = (if s.active.flags.getLsbD 4 then 0x01#8 else 0x00#8) ∧
        F.getD 32 0#8 = (if s.active.flags.getLsbD 5 then 0x01#8 else 0x00#8) ∧
        F.drop 33 = le2 (crc16 (F.take 33))) ∧
    ∀ (s : State) (F : List Byte), F = encD s →
      F.length = 5 ∧ F.getD 0 0#8 = 0xA5#8 ∧ F.getD 1 0#8 = s.active.dOp ∧ (F.drop 2).take 2 = le2 s.active.dVal ∧
        F.getD 4 0#8 = checksum8 (F.take 4)

/-- R170, an inference of the spec from R160, R165 and R166: the encoders' frames pass their check, and reading them back gives every
field that the frame carries exactly. The two zeros for D_OP and D_VAL in the reading of a format A frame, which carries neither, are the
model's choice and no rule of the spec (log entry 32). -/
def Obligations.CommandRecordRoundTrip : Prop :=
  ∀ (s : State) (q : Half) (m : Word),
    (validFrame s.params .A (encA s q m) = true ∧ validFrame s.params .D (encD s) = true) ∧
      (readCommand (encA s q m) = { s.active with ammo := m, dOp := 0#8, dVal := 0#16 } ∧
        fieldU (encA s q m) 1 1 = s.subIdA.toNat ∧ fieldU (encA s q m) 2 2 = q.toNat ∧
        fieldU (encA s q m) 26 4 = m.toNat) ∧
      (fieldU (encD s) 1 1 = s.active.dOp.toNat ∧ fieldU (encD s) 2 2 = s.active.dVal.toNat)

/-- R160: what the frame check looks at, the length and the trailer bytes, and nothing else. -/
def Obligations.FrameCheckMeaning : Prop :=
  (∀ (p : Params) (f : Format) (F : List Byte), f = .A ∨ f = .B →
      (validFrame p f F = true ↔
        F.length = frameSize p f ∧
          (crc16 (F.take (frameSize p f - 2))).toNat =
            (F.getD (frameSize p f - 2) 0#8).toNat + 256 * (F.getD (frameSize p f - 1) 0#8).toNat)) ∧
    ∀ (p : Params) (f : Format) (F : List Byte), f = .C ∨ f = .D →
      (validFrame p f F = true ↔
        F.length = frameSize p f ∧ checksum8 (F.take (frameSize p f - 1)) = F.getD (frameSize p f - 1) 0#8)

/-! ### The synchronizer family (42_sync) -/

/-- R195, SYNC.FEED: BUSY while running; else one byte to the synchronizer, and an emitted frame is enqueued or dropped with EVQ_OVF.
LAST_RX and LINK are unchanged. -/
def Obligations.SyncFeedPushesOneByte : Prop :=
  (∀ b : Byte, encode (.syncFeed b) = 0x00000020#32 ||| (b.setWidth 32 <<< 8)) ∧
    (∀ (b : Byte) (s : State), s.running = true → exec (.syncFeed b) s = .next { s with result := .busy }) ∧
    (∀ (b : Byte) (s : State) (buf : List Byte), s.running = false → synchronized s [b] = ([], buf) →
      exec (.syncFeed b) s = .next { s with rxBuf := buf, result := .ok }) ∧
    (∀ (b : Byte) (s : State) (F buf : List Byte), s.running = false → synchronized s [b] = ([F], buf) →
      s.evq.length < s.params.evqDepth →
      exec (.syncFeed b) s = .next { s with rxBuf := buf, evq := s.evq ++ [.telemetry F], result := .ok }) ∧
    (∀ (b : Byte) (s : State) (F buf : List Byte), s.running = false → synchronized s [b] = ([F], buf) →
      s.params.evqDepth ≤ s.evq.length →
      exec (.syncFeed b) s = .next { s with rxBuf := buf, evqOvf := true, result := .ok }) ∧
    (∀ (b : Byte) (s : State), s.rxBuf.length < rxSize s → (synchronized s [b]).1.length ≤ 1) ∧
    IllegalWhere 0x20#8 (fun imm => imm.extractLsb' 8 8 ≠ 0#8)

/-- R196, SYNC.CLR. -/
def Obligations.SyncClrEmptiesBuffer : Prop :=
  encode .syncClr = 0x00000021#32 ∧
    (∀ s : State, s.running = true → exec .syncClr s = .next { s with result := .busy }) ∧
    (∀ s : State, s.running = false → exec .syncClr s = .next { s with rxBuf := [], result := .ok }) ∧
    IllegalWhere 0x21#8 (fun imm => imm ≠ 0#16)

/-- R194: a byte fed to a buffer shorter than a frame emits at most one frame and leaves fewer bytes than a frame; what it emits has
the frame size, starts with the header and passes the check (R192). -/
def Obligations.FeedByteEmitsAtMostOneFrame : Prop :=
  ∀ (n : Nat) (h : Byte) (valid : List Byte → Bool) (buf : List Byte) (b : Byte), 0 < n → buf.length < n →
    (feedByte n h valid buf b).1.length ≤ 1 ∧ (feedByte n h valid buf b).2.length ≤ n - 1 ∧
      ((feedByte n h valid buf b).1 ≠ [] → (feedByte n h valid buf b).2 = []) ∧
      ∀ F ∈ (feedByte n h valid buf b).1, F = buf ++ [b] ∧ F.length = n ∧ F.head? = some h ∧ valid F = true

/-- R197: from an empty buffer, the frames emitted from a stream are exactly those the scan finds, in order. -/
def Obligations.SynchronizerFindsScanFrames : Prop :=
  ∀ (n : Nat) (h : Byte) (valid : List Byte → Bool) (S : List Byte), 0 < n →
    (feedStream n h valid [] S).1 = scanFrames n h valid S

/-- R199: byte by byte or in chunks, for every split of the stream, the same frames come in the same order. -/
def Obligations.ChunkedFeedEmitsSameFrames : Prop :=
  ∀ (n : Nat) (h : Byte) (valid : List Byte → Bool) (chunks : List (List Byte)), 0 < n →
    feedChunks n h valid [] chunks = (feedStream n h valid [] chunks.flatten).1

/-! ### The link family (43_link) -/

/-- R230, LINK.START: BUSY while running; a failed open only sets OPEN_FAIL; a successful one starts the link, and its CONN_OPENED is
enqueued, or dropped with EVQ_OVF where the queue is full. The open's outcome is the transport's draw. -/
def Obligations.LinkStartOpensLink : Prop :=
  encode .linkStart = 0x00000030#32 ∧
    (∀ s : State, s.running = true → exec .linkStart s = .next { s with result := .busy }) ∧
    (∀ s : State, s.running = false → openOutcome s = .fail →
      exec .linkStart s = .next { s with openFail := true, result := .openFailure }) ∧
    (∀ s : State, s.running = false → openOutcome s = .ok → s.evq.length < s.params.evqDepth →
      exec .linkStart s = .next
        { s with
          running := true, lastTx := s.now, lastRx := s.now, rxBuf := [], ioErrCnt := 0#16, openFail := false,
          evq := s.evq ++ [.connOpened], result := .ok }) ∧
    (∀ s : State, s.running = false → openOutcome s = .ok → s.params.evqDepth ≤ s.evq.length →
      exec .linkStart s = .next
        { s with
          running := true, lastTx := s.now, lastRx := s.now, rxBuf := [], ioErrCnt := 0#16, openFail := false,
          evqOvf := true, result := .ok }) ∧
    IllegalWhere 0x30#8 (fun imm => imm ≠ 0#16)

/-- R231, LINK.STOP: NOT_RUNNING while stopped; else TRX is discarded, CONN_CLOSED is enqueued, or dropped with EVQ_OVF where the
queue is full, and RUNNING and LINK go to 0 and STALE. -/
def Obligations.LinkStopClosesLink : Prop :=
  encode .linkStop = 0x00000031#32 ∧
    (∀ s : State, s.running = false → exec .linkStop s = .next { s with result := .notRunning }) ∧
    (∀ s : State, s.running = true → s.evq.length < s.params.evqDepth →
      exec .linkStop s = .next
        { s with running := false, link := .stale, trx := [], evq := s.evq ++ [.connClosed], result := .ok }) ∧
    (∀ s : State, s.running = true → s.params.evqDepth ≤ s.evq.length →
      exec .linkStop s = .next { s with running := false, link := .stale, trx := [], evqOvf := true, result := .ok }) ∧
    IllegalWhere 0x31#8 (fun imm => imm ≠ 0#16)

/-- R233, LINK.SEND, with the two outcomes of a write (R252): NOT_RUNNING while stopped; nothing for FRAMELEN = 0; else the bytes
FB[0 .. FRAMELEN-1] to TTX, all of them, or the first k and one more counted error, for k below FRAMELEN as R252 has it, and RESULT
is OK either way. -/
def Obligations.LinkSendWritesFrame : Prop :=
  encode .linkSend = 0x00000032#32 ∧
    (∀ s : State, s.running = false → exec .linkSend s = .next { s with result := .notRunning }) ∧
    (∀ s : State, s.running = true → s.frameLen = 0#8 → exec .linkSend s = .next { s with result := .ok }) ∧
    (∀ s : State, s.running = true → s.frameLen ≠ 0#8 → writeOutcome s = .ok →
      exec .linkSend s = .next { s with ttx := s.ttx ++ fbList s s.frameLen.toNat, result := .ok }) ∧
    (∀ (s : State) (k : Nat), s.running = true → writeOutcome s = .err k → k < s.frameLen.toNat →
      exec .linkSend s = .next { s with ttx := s.ttx ++ fbList s k, ioErrCnt := satInc16 s.ioErrCnt, result := .ok }) ∧
    IllegalWhere 0x32#8 (fun imm => imm ≠ 0#16)

/-- R232, EVQ.POP. -/
def Obligations.EvqPopRemovesHead : Prop :=
  encode .evqPop = 0x00000040#32 ∧
    (∀ s : State, s.evq = [] → exec .evqPop s = .next { s with result := .empty }) ∧
    (∀ (s : State) (e : Event) (rest : List Event), s.evq = e :: rest →
      exec .evqPop s = .next { s with evq := rest, result := .ok }) ∧
    IllegalWhere 0x40#8 (fun imm => imm ≠ 0#16)

/-- R234, NOP. -/
def Obligations.NopWritesOnlyResult : Prop :=
  encode .nop = 0x00000000#32 ∧ (∀ s : State, exec .nop s = .next { s with result := .ok }) ∧
    IllegalWhere 0x00#8 (fun imm => imm ≠ 0#16)

/-- R240: `enqueue` appends below EVQ_DEPTH, and drops and sets EVQ_OVF at it. -/
def Obligations.EnqueueDropsWhenFull : Prop :=
  ∀ (ev : Event) (s : State),
    (s.evq.length < s.params.evqDepth → enqueue ev s = { s with evq := s.evq ++ [ev] }) ∧
      (s.params.evqDepth ≤ s.evq.length → enqueue ev s = { s with evqOvf := true })

/-! ### The tick (43_link R210 to R225) -/

/-- R210 and the rules that say what no tick touches (10_state R37, R38, R53, 70_reset_and_hazards R308): a tick always completes,
does nothing while RUNNING = 0 (the model's choice for a step that is not enabled, log entry 7), and changes only what its three phases write. -/
def Obligations.TickFrame : Prop :=
  ∀ s : State, ∃ t, agentStep .tick s = .next t ∧ (s.running = false → t = s) ∧
    t =
      { s with
        seq := t.seq, active := t.active, lastTx := t.lastTx, lastRx := t.lastRx, link := t.link, rxBuf := t.rxBuf, evq := t.evq,
        evqOvf := t.evqOvf, trx := t.trx, ttx := t.ttx, ioErrCnt := t.ioErrCnt } ∧
    t.active = { s.active with ammo := t.active.ammo }

/-- R211 to R214: the gate fires in a tick iff VARIANT = 0 and t - LAST_TX ≥ T_TX; firing sends enc_A with the incremented SEQ and
A_AMMO, clears A_AMMO, sets LAST_TX whatever the write's outcome; a tick in which it does not fire leaves all four alone. A firing whose
write fails counts one error (R252, 60_exceptions R275), and a tick in which neither the write nor the read fails counts none; a tick
whose read fails is `FailedReadOnlyCounts`. A drawn k of 35 or more is capped (log entry 4). -/
def Obligations.TransmitGateRule : Prop :=
  ∀ s : State, s.running = true → ∃ t, agentStep .tick s = .next t ∧
    (GateFires s →
      t.seq = s.seq + 1#16 ∧ t.active.ammo = 0#32 ∧ t.lastTx = s.now ∧
      (writeOutcome s = .ok → t.ttx = s.ttx ++ encA s (s.seq + 1#16) s.active.ammo) ∧
      ∀ k, writeOutcome s = .err k →
        ∃ j, j < 35 ∧ (k < 35 → j = k) ∧ t.ttx = s.ttx ++ (encA s (s.seq + 1#16) s.active.ammo).take j) ∧
    (¬ GateFires s → t.seq = s.seq ∧ t.active.ammo = s.active.ammo ∧ t.lastTx = s.lastTx ∧ t.ttx = s.ttx) ∧
    (s.trx = [] ∨ bytesRead s ≠ none →
      (∀ k, GateFires s → writeOutcome s = .err k → t.ioErrCnt = satInc16 s.ioErrCnt) ∧
        (¬ GateFires s ∨ writeOutcome s = .ok → t.ioErrCnt = s.ioErrCnt))

/-- R216, R217, R219, R240: with TRX empty a tick leaves TRX, RXBUF and LAST_RX alone. The bytes a successful read delivers leave TRX
from its head and go to the synchronizer in order; where it emits frames, LAST_RX becomes the tick's time, the frames that fit are
enqueued in the order of the stream, the rest are dropped, and EVQ_OVF is set if one is dropped and else unchanged (R61). A tick in time
that emits none leaves EVQ and EVQ_OVF alone; one that is late is `WatchdogDecidesLink`. -/
def Obligations.ReceiveFeedsSynchronizer : Prop :=
  (∀ s : State, s.running = true → s.trx = [] →
    ∃ t, agentStep .tick s = .next t ∧ t.trx = [] ∧ t.rxBuf = s.rxBuf ∧ t.lastRx = s.lastRx ∧
      (s.now - s.lastRx ≤ s.tWd.setWidth 64 → t.evq = s.evq ∧ t.evqOvf = s.evqOvf)) ∧
    ∀ (s : State) (bs : List Byte), s.running = true → s.trx ≠ [] → bytesRead s = some bs →
      ∃ t, agentStep .tick s = .next t ∧ s.trx = bs ++ t.trx ∧ t.rxBuf = (synchronized s bs).2 ∧
        ((synchronized s bs).1 = [] → t.lastRx = s.lastRx ∧
          (s.now - s.lastRx ≤ s.tWd.setWidth 64 → t.evq = s.evq ∧ t.evqOvf = s.evqOvf)) ∧
        ((synchronized s bs).1 ≠ [] → t.lastRx = s.now ∧
          t.evq = s.evq ++ ((synchronized s bs).1.map Event.telemetry).take (s.params.evqDepth - s.evq.length) ∧
          (s.evq.length + (synchronized s bs).1.length ≤ s.params.evqDepth → t.evqOvf = s.evqOvf) ∧
          (s.params.evqDepth < s.evq.length + (synchronized s bs).1.length → t.evqOvf = true))

/-- R218: a failed read takes no byte of TRX, changes neither RXBUF nor LAST_RX, enqueues no frame, and counts one error, on top of the
one that a failed write of the gate in the same tick counts (R252); the watchdog still runs. -/
def Obligations.FailedReadOnlyCounts : Prop :=
  ∀ s : State, s.running = true → s.trx ≠ [] → bytesRead s = none →
    ∃ t, agentStep .tick s = .next t ∧ t.trx = s.trx ∧ t.rxBuf = s.rxBuf ∧ t.lastRx = s.lastRx ∧
      (∀ F, .telemetry F ∉ newEvents s t) ∧ (¬ GateFires s ∨ writeOutcome s = .ok → t.ioErrCnt = satInc16 s.ioErrCnt) ∧
      (∀ k, GateFires s → writeOutcome s = .err k → t.ioErrCnt = satInc16 (satInc16 s.ioErrCnt)) ∧
      (s.tWd.setWidth 64 < s.now - s.lastRx → t.link = .stale) ∧
      (s.now - s.lastRx ≤ s.tWd.setWidth 64 → t.link = .synced ∧ t.evq = s.evq ∧ t.evqOvf = s.evqOvf)

/-- R220, R221, R222: after every tick, with e = t - LAST_RX after the receive phase, LINK is STALE if e > T_WD and SYNCED if not. A
stale tick enqueues exactly one LINK_TIMEOUT, again on each such tick, with EVQ_OVF unchanged, or drops it and sets EVQ_OVF; a synced
tick enqueues none, and leaves EVQ_OVF unchanged unless the queue is full after it. -/
def Obligations.WatchdogDecidesLink : Prop :=
  ∀ s : State, s.running = true → ∃ t, agentStep .tick s = .next t ∧
    (s.tWd.setWidth 64 < s.now - t.lastRx →
      t.link = .stale ∧
      (s.evq.length < s.params.evqDepth → t.evq = s.evq ++ [.linkTimeout] ∧ t.evqOvf = s.evqOvf) ∧
      (s.params.evqDepth ≤ s.evq.length → t.evq = s.evq ∧ t.evqOvf = true)) ∧
    (s.now - t.lastRx ≤ s.tWd.setWidth 64 →
      t.link = .synced ∧ (∃ fs : List (List Byte), t.evq = s.evq ++ fs.map Event.telemetry) ∧
      (t.evq.length < s.params.evqDepth → t.evqOvf = s.evqOvf))

/-- R223: a tick that enqueues a frame ends in SYNCED with LAST_RX at its own time, and enqueues no LINK_TIMEOUT. -/
def Obligations.FrameRestoresSync : Prop :=
  ∀ (s t : State) (F : List Byte), s.running = true → agentStep .tick s = .next t → .telemetry F ∈ newEvents s t →
    t.link = .synced ∧ t.lastRx = s.now ∧ .linkTimeout ∉ newEvents s t

/-- The tick is a function of what its rules read: FRAMEBUF, FRAMELEN, CRC, CK8, the staging snapshot and RESULT neither influence it
nor change (10_state R37, R38, R50, R53, 70_reset_and_hazards R308, R309). -/
def Obligations.TickIgnoresHostScratch : Prop :=
  ∀ (s t : State) (m : Memory) (len : Byte) (c : Half) (k : Byte) (g : Snapshot) (r : ResultCode),
    agentStep .tick s = .next t →
      agentStep .tick (withScratch m len c k g r s) = .next (withScratch m len c k g r t)

/-- Under TICK_FAIR (70_reset_and_hazards R313) a stale link is reported: while the link runs, no byte arrives and only time passes and
ticks happen, once NOW is more than T_WD + TICK_MAX past LAST_RX the link state is STALE (43_link R220, R225). -/
def Obligations.StaleShownUnderTickFair : Prop :=
  ∀ (tickMax since : Nat) (steps : List AgentStep) (s t : State),
    (∀ a ∈ steps, a = .tick ∨ ∃ n, a = .time n) → s.running = true → s.trx = [] → s.lastRx ≤ s.now →
    since ≤ s.now.toNat → s.now.toNat ≤ since + tickMax →
    (s.lastRx.toNat + s.tWd.toNat < since → s.link = .stale) →
    tickFair tickMax steps since s = true → runProgram steps s = .next t →
    s.lastRx.toNat + s.tWd.toNat + tickMax < t.now.toNat → t.link = .stale

/-! ### The register window (10_state, 20_memory) -/

/-- R32: CTRL as written and as read. -/
def Obligations.CtrlWriteRule : Prop :=
  (∀ (s : State) (v : Word), ∃ t, agentStep (.write .word 0x000#12 v) s = .next t ∧
      t = { s with irqEn := v.getLsbD 2, variant := t.variant, rxBuf := t.rxBuf } ∧
      (s.running = true ∨ v.extractLsb' 0 2 = 2#2 ∨ v.extractLsb' 0 2 = 3#2 → t.variant = s.variant) ∧
      (s.running = false → v.extractLsb' 0 2 = 0#2 → t.variant = .a) ∧
      (s.running = false → v.extractLsb' 0 2 = 1#2 → t.variant = .b) ∧
      (t.variant ≠ s.variant → t.rxBuf = []) ∧ (t.variant = s.variant → t.rxBuf = s.rxBuf)) ∧
    (∀ s : State, ∃ v : Word, agentStep (.read .word 0x000#12) s = .next { s with busData := some v } ∧
      v.extractLsb' 0 2 = (match s.variant with | .a => 0#2 | .b => 1#2) ∧ v.getLsbD 2 = s.irqEn ∧
      v.extractLsb' 3 29 = 0#29) ∧
    State.reset.variant = .a ∧ State.reset.irqEn = false

/-- R33, R34, R62: every field of STATUS as read, the IRQ line, and what a write clears. The two counts are the queue's and the buffer's
lengths in every state that meets the invariant. -/
def Obligations.StatusFieldsAndClear : Prop :=
  (∀ s : State, ∃ v : Word, agentStep (.read .word 0x004#12) s = .next { s with busData := some v } ∧
      v.getLsbD 0 = s.running ∧ (v.getLsbD 1 = true ↔ s.link = .synced) ∧ v.getLsbD 2 = s.openFail ∧ v.getLsbD 3 = s.evqOvf ∧
      (v.getLsbD 4 = true ↔ s.evq ≠ []) ∧ v.getLsbD 5 = (v.getLsbD 4 && s.irqEn) ∧ irqLine s = v.getLsbD 5 ∧
      v.extractLsb' 6 2 = 0#2 ∧ v.extractLsb' 24 8 = 0#8 ∧
      (Inv s → (v.extractLsb' 8 8).toNat = s.evq.length ∧ (v.extractLsb' 16 8).toNat = s.rxBuf.length)) ∧
    ∀ (s : State) (v : Word), agentStep (.write .word 0x004#12 v) s = .next
      { s with
        openFail := if v.getLsbD 2 then false else s.openFail, evqOvf := if v.getLsbD 3 then false else s.evqOvf }

/-- R36 to R41, R44, R45, R47: host writes of the plain registers, each truncated to its width, SEQ only while stopped; and host reads
of them, each zero-extended; with the codes of RESULT (60_exceptions R260). -/
def Obligations.PlainRegisterAccess : Prop :=
  (∀ (s : State) (v : Word),
    agentStep (.write .word 0x010#12 v) s = .next { s with crc := v.extractLsb' 0 16 } ∧
      agentStep (.write .word 0x014#12 v) s = .next { s with ck8 := v.extractLsb' 0 8 } ∧
      (s.running = false → agentStep (.write .word 0x018#12 v) s = .next { s with seq := v.extractLsb' 0 16 }) ∧
      (s.running = true → agentStep (.write .word 0x018#12 v) s = .next s) ∧
      agentStep (.write .word 0x01C#12 v) s = .next { s with tTx := v } ∧
      agentStep (.write .word 0x020#12 v) s = .next { s with tWd := v } ∧
      agentStep (.write .word 0x02C#12 v) s = .next { s with frameLen := v.extractLsb' 0 8 } ∧
      agentStep (.write .word 0x038#12 v) s = .next { s with subIdA := v.extractLsb' 0 8 }) ∧
    (∀ s : State,
      agentStep (.read .word 0x00C#12) s = .next { s with busData := some (0#24 ++ s.result.byte) } ∧
        agentStep (.read .word 0x010#12) s = .next { s with busData := some (0#16 ++ s.crc) } ∧
        agentStep (.read .word 0x014#12) s = .next { s with busData := some (0#24 ++ s.ck8) } ∧
        agentStep (.read .word 0x018#12) s = .next { s with busData := some (0#16 ++ s.seq) } ∧
        agentStep (.read .word 0x01C#12) s = .next { s with busData := some s.tTx } ∧
        agentStep (.read .word 0x020#12) s = .next { s with busData := some s.tWd } ∧
        agentStep (.read .word 0x02C#12) s = .next { s with busData := some (0#24 ++ s.frameLen) } ∧
        agentStep (.read .word 0x030#12) s = .next { s with busData := some (0#16 ++ s.ioErrCnt) } ∧
        agentStep (.read .word 0x038#12) s = .next { s with busData := some (0#24 ++ s.subIdA) }) ∧
    (ResultCode.byte .ok = 0x00#8 ∧ ResultCode.byte .checksumMismatch = 0x01#8 ∧ ResultCode.byte .malformedFrame = 0x02#8 ∧
      ResultCode.byte .illegal = 0x03#8 ∧ ResultCode.byte .busy = 0x04#8 ∧ ResultCode.byte .notRunning = 0x05#8 ∧
      ResultCode.byte .openFailure = 0x06#8 ∧ ResultCode.byte .empty = 0x07#8)

/-- R43: NOW_LO returns NOW[31:0] and latches NOW[63:32]; NOW_HI returns the latch; the two reads give one consistent sample, whatever
agents do between them that leaves the latch. -/
def Obligations.NowReadsGiveOneSample : Prop :=
  (∀ s : State, ∃ (t : State) (lo : Word), agentStep (.read .word 0x024#12) s = .next t ∧
      t = { s with nowHiLatch := t.nowHiLatch, busData := some lo } ∧
      lo = s.now.extractLsb' 0 32 ∧ t.nowHiLatch = s.now.extractLsb' 32 32 ∧
      ∀ u : State, u.nowHiLatch = t.nowHiLatch →
        ∃ hi : Word, agentStep (.read .word 0x028#12) u = .next { u with busData := some hi } ∧ hi ++ lo = s.now) ∧
    State.reset.nowHiLatch = 0#32

/-- R48, R50, R51: a staging write stores the field's bits and nothing else, so the active snapshot is unchanged; it reads back; the
mirror at + 0x40 reads the active field and ignores writes. -/
def Obligations.SnapshotRegisterAccess : Prop :=
  ∀ (f : SnapField) (v : Word) (s : State),
    (∃ t, agentStep (.write .word (BitVec.ofNat 12 (stagingOffset f)) v) s = .next t ∧
        t = { s with staging := t.staging } ∧ t.staging.get f = v &&& snapMask f ∧
        (∀ g, g ≠ f → t.staging.get g = s.staging.get g) ∧
        agentStep (.read .word (BitVec.ofNat 12 (stagingOffset f))) t = .next { t with busData := some (v &&& snapMask f) }) ∧
      agentStep (.write .word (BitVec.ofNat 12 (stagingOffset f + 0x40)) v) s = .next s ∧
      agentStep (.read .word (BitVec.ofNat 12 (stagingOffset f + 0x40))) s = .next { s with busData := some (s.active.get f) }

/-- R53, R82: a host write of a FRAMEBUF word sets its four bytes, the lowest lane at the lowest index, and no other byte; the word
reads back as written. -/
def Obligations.FrameBufWordAccess : Prop :=
  ∀ (k : Nat) (v : Word) (s : State), k < 64 →
    ∃ t, agentStep (.write .word (BitVec.ofNat 12 (0x100 + 4 * k)) v) s = .next t ∧ t = { s with frameBuf := t.frameBuf } ∧
      t.fb (4 * k) = v.extractLsb' 0 8 ∧ t.fb (4 * k + 1) = v.extractLsb' 8 8 ∧ t.fb (4 * k + 2) = v.extractLsb' 16 8 ∧
      t.fb (4 * k + 3) = v.extractLsb' 24 8 ∧ (∀ i, i < 4 * k ∨ 4 * k + 4 ≤ i → t.fb i = s.fb i) ∧
      agentStep (.read .word (BitVec.ofNat 12 (0x100 + 4 * k))) t = .next { t with busData := some v }

/-- R46, R54: EVQ_HEAD and EVDATA show the head event, and 0 for an empty queue and past the record's end. -/
def Obligations.EventWindowShowsHead : Prop :=
  (∀ s : State, s.evq = [] → agentStep (.read .word 0x034#12) s = .next { s with busData := some 0#32 }) ∧
    (∀ (s : State) (e : Event) (rest : List Event), s.evq = e :: rest → Inv s →
      ∃ v : Word, agentStep (.read .word 0x034#12) s = .next { s with busData := some v } ∧ v.getLsbD 31 = true ∧
        (v.extractLsb' 8 8).toNat = e.record.length ∧ v.extractLsb' 0 2 = e.typeCode ∧ v.extractLsb' 2 6 = 0#6 ∧
        v.extractLsb' 16 15 = 0#15) ∧
    ∀ (k : Nat) (s : State), k < 64 →
      ∃ v : Word, agentStep (.read .word (BitVec.ofNat 12 (0x200 + 4 * k))) s = .next { s with busData := some v } ∧
        ∀ j, j < 4 → v.extractLsb' (8 * j) 8 =
          (match s.evq with | [] => 0#8 | e :: _ => e.record.getD (4 * k + j) 0#8)

/-- R83 and the RO rows of R63: an unmapped offset reads 0 and ignores writes; a read-only register ignores writes. -/
def Obligations.UnmappedAndReadOnlyOffsets : Prop :=
  (∀ (off : Offset) (v : Word) (s : State), UnmappedOffset off.toNat →
      agentStep (.read .word off) s = .next { s with busData := some 0#32 } ∧
        agentStep (.write .word off v) s = .next s) ∧
    ∀ (off : Offset) (v : Word) (s : State), ReadOnlyOffset off.toNat → agentStep (.write .word off v) s = .next s

/-- R81, R314: an agent step faults exactly if it is a host access that is not an aligned 32-bit access; nothing any agent does is
refused. -/
def Obligations.OnlyBadAccessFaults : Prop :=
  (∀ (a : AgentStep) (s : State), (∃ f, agentStep a s = .fault f) ↔
      ∃ width off, BadAccess width off ∧ (a = .read width off ∨ ∃ v, a = .write width off v)) ∧
    ∀ (a : AgentStep) (s : State) (r : Refusal), agentStep a s ≠ .refused r

/-- R84: a read of NOW_LO loads NOW_HI_LATCH; every other read gives the host its value and changes nothing else, so it is idempotent
(the value read is the model's `busData`). -/
def Obligations.OnlyNowLoReadHasSideEffect : Prop :=
  ∀ (off : Offset) (s : State), off.toNat % 4 = 0 →
    ∃ (t : State) (v : Word), agentStep (.read .word off) s = .next t ∧ t.busData = some v ∧
      (off = 0x024#12 → t = { s with busData := some v, nowHiLatch := s.now.extractLsb' 32 32 }) ∧
      (off ≠ 0x024#12 → t = { s with busData := some v } ∧ agentStep (.read .word off) t = .next t)

/-! ### The other agents -/

/-- R42, R250: time never goes back and bytes arrive only while the transport is open; that a step that is not enabled changes nothing is
the model's choice (log entry 7). -/
def Obligations.EnvironmentSteps : Prop :=
  (∀ (s : State) (n : Time), s.now ≤ n → agentStep (.time n) s = .next { s with now := n }) ∧
    (∀ (s : State) (n : Time), n < s.now → agentStep (.time n) s = .next s) ∧
    (∀ (s : State) (bs : List Byte), s.running = true → agentStep (.rx bs) s = .next { s with trx := s.trx ++ bs }) ∧
    ∀ (s : State) (bs : List Byte), s.running = false → agentStep (.rx bs) s = .next s

/-- R291, R292: one reset step, from any state, sets every register and hidden state to its reset value, leaves TRX empty, TTX as it was
and the IRQ line low. -/
def Obligations.ResetStepState : Prop :=
  ∀ s : State, ∃ t, agentStep .reset s = .next t ∧
    (t.variant = .a ∧ t.irqEn = false ∧ t.running = false ∧ t.link = .stale ∧ t.openFail = false ∧ t.evqOvf = false ∧
      t.result = .ok ∧ t.crc = 0xFFFF#16 ∧ t.ck8 = 0#8 ∧ t.seq = 0#16 ∧ t.tTx = 5000#32 ∧ t.tWd = 1000000#32 ∧ t.now = 0#64 ∧
      t.nowHiLatch = 0#32 ∧ t.frameLen = 0#8 ∧ t.ioErrCnt = 0#16 ∧ t.subIdA = 0#8) ∧
    (∀ f : SnapField, t.staging.get f = 0#32 ∧ t.active.get f = 0#32) ∧ (∀ i, t.fb i = 0#8) ∧
    (t.rxBuf = [] ∧ t.lastTx = 0#64 ∧ t.lastRx = 0#64 ∧ t.evq = [] ∧ t.trx = [] ∧ t.ttx = s.ttx) ∧
    (statusWord t = 0#32 ∧ evqHeadWord t = 0#32 ∧ irqLine t = false)

/-! ### The whole machine -/

/-- Every step keeps the invariant: FRAMEBUF canonical, RXBUF shorter than a frame (42_sync R194), EVQ at most EVQ_DEPTH sound events
(10_state R60), STALE and an empty TRX while stopped, LAST_TX and LAST_RX past samples of NOW (43_link R211). -/
def Obligations.StepKeepsInv : Prop :=
  ∀ s t : State, Inv s → step s = .next t → Inv t

/-- The reset state meets the invariant. -/
def Obligations.ResetSatisfiesInv : Prop := Inv State.reset

/-- R261: every command ends in its own step, and one that raises a code other than OK changes RESULT and nothing else, but that
OPEN_FAILURE also sets OPEN_FAIL. -/
def Obligations.RaisedCommandChangesOnlyResult : Prop :=
  (∀ (i : Instr) (s : State), ∃ t, exec i s = .next t) ∧
    ∀ (i : Instr) (s t : State), exec i s = .next t → t.result ≠ .ok →
      (t.result ≠ .openFailure → t = { s with result := t.result }) ∧
        (t.result = .openFailure → i = .linkStart ∧ t = { s with result := .openFailure, openFail := true })

/-- Which steps can change which register, over all agents: R36 and R308 for RESULT, R37 for CRC, R38 for CK8, R39 for SEQ, R42 for NOW,
R45 for IOERR_CNT, R58 for LINK, R59 for RUNNING, R51 for the active snapshot. -/
def Obligations.OnlyTheirOwnStepsChangeRegisters : Prop :=
  ∀ (a : AgentStep) (s t : State), agentStep a s = .next t → a ≠ .reset →
    (t.result ≠ s.result → ∃ w, a = .write .word 0x008#12 w) ∧
      (t.crc ≠ s.crc → ∃ w, a = .write .word 0x010#12 w ∨
        (a = .write .word 0x008#12 w ∧ w.extractLsb' 0 8 ∈ [0x01#8, 0x02#8, 0x03#8])) ∧
      (t.ck8 ≠ s.ck8 → ∃ w, a = .write .word 0x014#12 w ∨
        (a = .write .word 0x008#12 w ∧ w.extractLsb' 0 8 ∈ [0x04#8, 0x05#8, 0x06#8])) ∧
      (t.seq ≠ s.seq → (a = .tick ∧ t.seq = s.seq + 1#16) ∨ (s.running = false ∧ ∃ w, a = .write .word 0x018#12 w)) ∧
      (t.now ≠ s.now → s.now ≤ t.now ∧ ∃ n, a = .time n) ∧
      (t.ioErrCnt ≠ s.ioErrCnt → (t.ioErrCnt = 0#16 ∧ a = .write .word 0x008#12 0x00000030#32) ∨
        (t.ioErrCnt.toNat = s.ioErrCnt.toNat + 1 ∧ (a = .tick ∨ a = .write .word 0x008#12 0x00000032#32)) ∨
        (t.ioErrCnt.toNat = s.ioErrCnt.toNat + 2 ∧ a = .tick)) ∧
      (t.link ≠ s.link → a = .tick ∨ a = .write .word 0x008#12 0x00000031#32) ∧
      (t.running ≠ s.running → (s.running = false ∧ a = .write .word 0x008#12 0x00000030#32) ∨
        (s.running = true ∧ a = .write .word 0x008#12 0x00000031#32)) ∧
      (t.active ≠ s.active → a = .write .word 0x008#12 0x00000014#32 ∨
        (a = .tick ∧ t.active = { s.active with ammo := 0#32 }))

/-- R307, R92, R56: but for reset, only EVQ.POP takes an event from the queue, every other step only appends; no step, reset included,
takes a byte back from TTX; no step changes the OPEN parameters (00_scope R7). -/
def Obligations.QueueAndStreamsOnlyGrow : Prop :=
  ∀ (a : AgentStep) (s t : State), agentStep a s = .next t →
    (a ≠ .reset → a ≠ .write .word 0x008#12 0x00000040#32 → s.evq <+: t.evq) ∧ s.ttx <+: t.ttx ∧ t.params = s.params
end

