-- ==== Sys2Proof/Laws/Memory.lean ====
section
/-! SUPPORT. FRAMEBUF: a read after a write, and every operation keeps the canonical form (10_state R53). -/

namespace Sys2Proof.Machine

@[simp] theorem Memory.read_nil (i : Nat) : Memory.read [] i = 0x00#8 := rfl

theorem Memory.read_cons (c : Host.Cell) (m : Memory) (i : Nat) :
    Memory.read (c :: m) i = if c.1 = i then c.2 else Memory.read m i := rfl

theorem Memory.read_filter_other (m : Memory) {i j : Nat} (h : j ≠ i) :
    Memory.read (m.filter fun c => c.1 != i) j = Memory.read m j := by
  induction m with
  | nil => rfl
  | cons c m ih =>
    by_cases hc : c.1 = i
    · simp [hc, ih, Memory.read_cons, Ne.symm h]
    · simp [hc, ih, Memory.read_cons]

theorem Memory.read_eq_zero {m : Memory} {i : Nat} (h : ∀ c ∈ m, c.1 ≠ i) : Memory.read m i = 0x00#8 := by
  induction m with
  | nil => rfl
  | cons c m ih =>
    rw [Memory.read_cons, if_neg (h c (by simp)), ih fun d hd => h d (by simp [hd])]

theorem Memory.filter_ne (m : Memory) (i : Nat) : ∀ c ∈ m.filter (fun c => c.1 != i), c.1 ≠ i := by
  intro c hc
  simpa using (List.mem_filter.mp hc).2

theorem Memory.read_insert {m : Memory} {i : Nat} (v : Byte) (j : Nat) (h : ∀ c ∈ m, c.1 ≠ i) :
    Memory.read (Memory.insert m i v) j = if j = i then v else Memory.read m j := by
  induction m with
  | nil => simp [Memory.insert, Memory.read_cons, eq_comm]
  | cons c m ih =>
    have hc : c.1 ≠ i := h c (by simp)
    simp only [Memory.insert]
    split
    · simp [Memory.read_cons, eq_comm]
    · rw [Memory.read_cons, ih fun d hd => h d (by simp [hd])]
      by_cases hj : j = i
      · subst hj; simp [hc]
      · simp [hj, Memory.read_cons]

/-- Reading after one byte is put: the byte there, the old byte anywhere else. -/
theorem Memory.read_put (m : Memory) (i : Nat) (v : Byte) (j : Nat) :
    Memory.read (Memory.put m i v) j = if j = i then v else Memory.read m j := by
  unfold Memory.put
  by_cases hv : v = 0x00#8
  · subst hv
    by_cases hj : j = i
    · subst hj; simp [Memory.read_eq_zero (Memory.filter_ne m j)]
    · simp [hj, Memory.read_filter_other m hj]
  · simp only [hv, if_false]
    rw [Memory.read_insert v j (Memory.filter_ne m i)]
    by_cases hj : j = i
    · simp [hj]
    · simp [hj, Memory.read_filter_other m hj]

theorem Memory.read_write (m : Memory) {i : Nat} (hi : i < frameBufSize) (v : Byte) (j : Nat) :
    Memory.read (Memory.write m i v) j = if j = i then v else Memory.read m j := by
  simp [Memory.write, hi, Memory.read_put]

/-- Reading after a run of bytes inside FRAMEBUF is written: those bytes there, the old byte anywhere else. -/
theorem Memory.read_writeBytes (bs : List Byte) : ∀ (m : Memory) (i : Nat), i + bs.length ≤ frameBufSize → ∀ j,
    Memory.read (Memory.writeBytes m i bs) j =
      if i ≤ j ∧ j < i + bs.length then bs.getD (j - i) 0x00#8 else Memory.read m j := by
  induction bs with
  | nil =>
    intro m i _ j
    have : ¬ (i ≤ j ∧ j < i) := by omega
    simp [Memory.writeBytes, this]
  | cons b bs ih =>
    intro m i hi j
    simp only [List.length_cons] at hi ⊢
    rw [Memory.writeBytes, ih _ _ (by omega), Memory.read_write m (by omega)]
    by_cases hj : j = i
    · subst hj
      simp
    · by_cases hin : i + 1 ≤ j ∧ j < i + 1 + bs.length
      · have h2 : i ≤ j ∧ j < i + (bs.length + 1) := by omega
        have h3 : j - i = (j - (i + 1)) + 1 := by omega
        rw [if_pos hin, if_pos h2, h3, List.getD_cons_succ]
      · have h2 : ¬ (i ≤ j ∧ j < i + (bs.length + 1)) := by omega
        rw [if_neg hin, if_neg hj, if_neg h2]

@[simp] theorem Memory.length_readBytes (m : Memory) (i n : Nat) : (Memory.readBytes m i n).length = n := by
  simp [Memory.readBytes]

/-! ### The canonical form -/

theorem Memory.wf_cons {c : Host.Cell} {m : Memory} :
    Memory.wf (c :: m) = true ↔
      c.1 < frameBufSize ∧ c.2 ≠ 0x00#8 ∧ (∀ d ∈ m, c.1 < d.1) ∧ Memory.wf m = true := by
  obtain ⟨a, b⟩ := c
  simp only [Memory.wf, Bool.and_eq_true, decide_eq_true_eq, List.all_eq_true, and_assoc]

theorem Memory.wf_filter {m : Memory} (h : Memory.wf m = true) (i : Nat) :
    Memory.wf (m.filter fun c => c.1 != i) = true := by
  induction m with
  | nil => rfl
  | cons c m ih =>
    obtain ⟨h1, h2, h3, h4⟩ := Memory.wf_cons.mp h
    rw [List.filter_cons]
    split
    · exact Memory.wf_cons.mpr ⟨h1, h2, fun d hd => h3 d (List.mem_filter.mp hd).1, ih h4⟩
    · exact ih h4

theorem Memory.mem_insert {m : Memory} {i : Nat} {v : Byte} {d : Host.Cell} (h : d ∈ Memory.insert m i v) :
    d = (i, v) ∨ d ∈ m := by
  induction m with
  | nil => simpa [Memory.insert] using h
  | cons c m ih =>
    simp only [Memory.insert] at h
    split at h
    · simpa using h
    · rcases List.mem_cons.mp h with h | h
      · simp [h]
      · rcases ih h with h | h <;> simp [h]

theorem Memory.wf_insert {m : Memory} (h : Memory.wf m = true) {i : Nat} {v : Byte} (hi : i < frameBufSize)
    (hv : v ≠ 0x00#8) (hn : ∀ c ∈ m, c.1 ≠ i) : Memory.wf (Memory.insert m i v) = true := by
  induction m with
  | nil => exact Memory.wf_cons.mpr ⟨hi, hv, by simp, rfl⟩
  | cons c m ih =>
    obtain ⟨h1, h2, h3, h4⟩ := Memory.wf_cons.mp h
    simp only [Memory.insert]
    split
    · rename_i hlt
      refine Memory.wf_cons.mpr ⟨hi, hv, fun d hd => ?_, h⟩
      rcases List.mem_cons.mp hd with hd | hd
      · exact hd ▸ hlt
      · exact Nat.lt_trans hlt (h3 d hd)
    · rename_i hge
      have hc : c.1 ≠ i := hn c (by simp)
      refine Memory.wf_cons.mpr ⟨h1, h2, fun d hd => ?_, ih h4 fun d hd => hn d (by simp [hd])⟩
      rcases Memory.mem_insert hd with hd | hd
      · subst hd; simp only at hge ⊢; omega
      · exact h3 d hd

theorem Memory.wf_nil : Memory.wf [] = true := rfl

theorem Memory.wf_write {m : Memory} (h : Memory.wf m = true) (i : Nat) (v : Byte) :
    Memory.wf (Memory.write m i v) = true := by
  unfold Memory.write
  split
  · rename_i hi
    unfold Memory.put
    by_cases hv : v = 0x00#8
    · simp only [hv, if_true]; exact Memory.wf_filter h i
    · simp only [hv, if_false]; exact Memory.wf_insert (Memory.wf_filter h i) hi hv (Memory.filter_ne m i)
  · exact h

/-- Every write of bytes keeps the canonical form. -/
theorem Memory.wf_writeBytes (bs : List Byte) : ∀ {m : Memory} (i : Nat), Memory.wf m = true →
    Memory.wf (Memory.writeBytes m i bs) = true := by
  induction bs with
  | nil => intro m i h; exact h
  | cons b bs ih => intro m i h; exact ih (i + 1) (Memory.wf_write h i b)

theorem putFb_wf {s : State} (h : Memory.wf s.frameBuf = true) (i : Nat) (bs : List Byte) :
    Memory.wf (putFb i bs s).frameBuf = true := Memory.wf_writeBytes bs i h

theorem reset_frameBuf_wf : Memory.wf State.reset.frameBuf = true := rfl

/-- Reading a byte of FRAMEBUF after bytes are put there. -/
theorem fb_putFb (s : State) (i : Nat) (bs : List Byte) (hi : i + bs.length ≤ frameBufSize) (j : Nat) :
    (putFb i bs s).fb j = if i ≤ j ∧ j < i + bs.length then bs.getD (j - i) 0x00#8 else s.fb j :=
  Memory.read_writeBytes bs s.frameBuf i hi j

/-- Two well-formed memories that read alike are the same list. -/
theorem Memory.ext_of_wf : ∀ {m m' : Memory}, Memory.wf m = true → Memory.wf m' = true →
    (∀ i, Memory.read m i = Memory.read m' i) → m = m' := by
  intro m
  induction m with
  | nil =>
    intro m' _ h' hr
    cases m' with
    | nil => rfl
    | cons c m' =>
      have := hr c.1
      simp [Memory.read_cons] at this
      exact absurd this.symm (Memory.wf_cons.mp h').2.1
  | cons c m ih =>
    intro m' h h' hr
    obtain ⟨h1, h2, h3, h4⟩ := Memory.wf_cons.mp h
    cases m' with
    | nil =>
      have := hr c.1
      simp [Memory.read_cons] at this
      exact absurd this h2
    | cons d m' =>
      obtain ⟨k1, k2, k3, k4⟩ := Memory.wf_cons.mp h'
      have zero_below : ∀ {n : Memory} {i : Nat}, (∀ e ∈ n, i < e.1) → Memory.read n i = 0x00#8 :=
        fun hn => Memory.read_eq_zero fun e he => Nat.ne_of_gt (hn e he)
      have hkey : c.1 = d.1 := by
        rcases Nat.lt_trichotomy c.1 d.1 with hlt | heq | hgt
        · have := hr c.1
          rw [Memory.read_cons, if_pos rfl, zero_below (n := d :: m')] at this
          · exact absurd this h2
          · intro e he
            rcases List.mem_cons.mp he with he | he
            · exact he ▸ hlt
            · exact Nat.lt_trans hlt (k3 e he)
        · exact heq
        · have := hr d.1
          rw [Memory.read_cons (c := d), if_pos rfl, zero_below (n := c :: m)] at this
          · exact absurd this.symm k2
          · intro e he
            rcases List.mem_cons.mp he with he | he
            · exact he ▸ hgt
            · exact Nat.lt_trans hgt (h3 e he)
      have hval : c.2 = d.2 := by
        have := hr c.1
        rwa [Memory.read_cons, if_pos rfl, Memory.read_cons, if_pos hkey.symm] at this
      have htail : m = m' := by
        refine ih h4 k4 fun i => ?_
        by_cases hi : c.1 = i
        · rw [zero_below (n := m) (fun e he => hi ▸ h3 e he), zero_below (n := m') (fun e he => hi ▸ hkey ▸ k3 e he)]
        · have := hr i
          rwa [Memory.read_cons, if_neg hi, Memory.read_cons, if_neg (fun hd => hi (hkey.trans hd))] at this
      rw [htail, Prod.ext hkey hval]

end Sys2Proof.Machine
end

