-- ==== Sys2Proof/Laws/State.lean ====
section
/-! SUPPORT. What each named update of the state leaves in each field: one lemma per field and update. The fields that `enqueue` and
`transportWrite` change by cases have their lemmas in Laws/Ops.lean. -/

namespace Sys2Proof.Machine

/-! ### raise -/

@[simp] theorem raise_variant (c : ResultCode) (s : State) : (raise c s).variant = s.variant := rfl
@[simp] theorem raise_irqEn (c : ResultCode) (s : State) : (raise c s).irqEn = s.irqEn := rfl
@[simp] theorem raise_running (c : ResultCode) (s : State) : (raise c s).running = s.running := rfl
@[simp] theorem raise_link (c : ResultCode) (s : State) : (raise c s).link = s.link := rfl
@[simp] theorem raise_openFail (c : ResultCode) (s : State) : (raise c s).openFail = s.openFail := rfl
@[simp] theorem raise_evqOvf (c : ResultCode) (s : State) : (raise c s).evqOvf = s.evqOvf := rfl
@[simp] theorem raise_result (c : ResultCode) (s : State) : (raise c s).result = c := rfl
@[simp] theorem raise_crc (c : ResultCode) (s : State) : (raise c s).crc = s.crc := rfl
@[simp] theorem raise_ck8 (c : ResultCode) (s : State) : (raise c s).ck8 = s.ck8 := rfl
@[simp] theorem raise_seq (c : ResultCode) (s : State) : (raise c s).seq = s.seq := rfl
@[simp] theorem raise_tTx (c : ResultCode) (s : State) : (raise c s).tTx = s.tTx := rfl
@[simp] theorem raise_tWd (c : ResultCode) (s : State) : (raise c s).tWd = s.tWd := rfl
@[simp] theorem raise_now (c : ResultCode) (s : State) : (raise c s).now = s.now := rfl
@[simp] theorem raise_nowHiLatch (c : ResultCode) (s : State) : (raise c s).nowHiLatch = s.nowHiLatch := rfl
@[simp] theorem raise_frameLen (c : ResultCode) (s : State) : (raise c s).frameLen = s.frameLen := rfl
@[simp] theorem raise_ioErrCnt (c : ResultCode) (s : State) : (raise c s).ioErrCnt = s.ioErrCnt := rfl
@[simp] theorem raise_subIdA (c : ResultCode) (s : State) : (raise c s).subIdA = s.subIdA := rfl
@[simp] theorem raise_staging (c : ResultCode) (s : State) : (raise c s).staging = s.staging := rfl
@[simp] theorem raise_active (c : ResultCode) (s : State) : (raise c s).active = s.active := rfl
@[simp] theorem raise_frameBuf (c : ResultCode) (s : State) : (raise c s).frameBuf = s.frameBuf := rfl
@[simp] theorem raise_rxBuf (c : ResultCode) (s : State) : (raise c s).rxBuf = s.rxBuf := rfl
@[simp] theorem raise_lastTx (c : ResultCode) (s : State) : (raise c s).lastTx = s.lastTx := rfl
@[simp] theorem raise_lastRx (c : ResultCode) (s : State) : (raise c s).lastRx = s.lastRx := rfl
@[simp] theorem raise_evq (c : ResultCode) (s : State) : (raise c s).evq = s.evq := rfl
@[simp] theorem raise_trx (c : ResultCode) (s : State) : (raise c s).trx = s.trx := rfl
@[simp] theorem raise_ttx (c : ResultCode) (s : State) : (raise c s).ttx = s.ttx := rfl
@[simp] theorem raise_params (c : ResultCode) (s : State) : (raise c s).params = s.params := rfl
@[simp] theorem raise_agenda (c : ResultCode) (s : State) : (raise c s).agenda = s.agenda := rfl
@[simp] theorem raise_openDraw (c : ResultCode) (s : State) : (raise c s).openDraw = s.openDraw := rfl
@[simp] theorem raise_writeDraw (c : ResultCode) (s : State) : (raise c s).writeDraw = s.writeDraw := rfl
@[simp] theorem raise_readDraw (c : ResultCode) (s : State) : (raise c s).readDraw = s.readDraw := rfl
@[simp] theorem raise_drawCount (c : ResultCode) (s : State) : (raise c s).drawCount = s.drawCount := rfl
@[simp] theorem raise_busData (c : ResultCode) (s : State) : (raise c s).busData = s.busData := rfl

/-! ### putFb -/

@[simp] theorem putFb_variant (i : Nat) (bs : List Byte) (s : State) : (putFb i bs s).variant = s.variant := rfl
@[simp] theorem putFb_irqEn (i : Nat) (bs : List Byte) (s : State) : (putFb i bs s).irqEn = s.irqEn := rfl
@[simp] theorem putFb_running (i : Nat) (bs : List Byte) (s : State) : (putFb i bs s).running = s.running := rfl
@[simp] theorem putFb_link (i : Nat) (bs : List Byte) (s : State) : (putFb i bs s).link = s.link := rfl
@[simp] theorem putFb_openFail (i : Nat) (bs : List Byte) (s : State) : (putFb i bs s).openFail = s.openFail := rfl
@[simp] theorem putFb_evqOvf (i : Nat) (bs : List Byte) (s : State) : (putFb i bs s).evqOvf = s.evqOvf := rfl
@[simp] theorem putFb_result (i : Nat) (bs : List Byte) (s : State) : (putFb i bs s).result = s.result := rfl
@[simp] theorem putFb_crc (i : Nat) (bs : List Byte) (s : State) : (putFb i bs s).crc = s.crc := rfl
@[simp] theorem putFb_ck8 (i : Nat) (bs : List Byte) (s : State) : (putFb i bs s).ck8 = s.ck8 := rfl
@[simp] theorem putFb_seq (i : Nat) (bs : List Byte) (s : State) : (putFb i bs s).seq = s.seq := rfl
@[simp] theorem putFb_tTx (i : Nat) (bs : List Byte) (s : State) : (putFb i bs s).tTx = s.tTx := rfl
@[simp] theorem putFb_tWd (i : Nat) (bs : List Byte) (s : State) : (putFb i bs s).tWd = s.tWd := rfl
@[simp] theorem putFb_now (i : Nat) (bs : List Byte) (s : State) : (putFb i bs s).now = s.now := rfl
@[simp] theorem putFb_nowHiLatch (i : Nat) (bs : List Byte) (s : State) : (putFb i bs s).nowHiLatch = s.nowHiLatch := rfl
@[simp] theorem putFb_frameLen (i : Nat) (bs : List Byte) (s : State) : (putFb i bs s).frameLen = s.frameLen := rfl
@[simp] theorem putFb_ioErrCnt (i : Nat) (bs : List Byte) (s : State) : (putFb i bs s).ioErrCnt = s.ioErrCnt := rfl
@[simp] theorem putFb_subIdA (i : Nat) (bs : List Byte) (s : State) : (putFb i bs s).subIdA = s.subIdA := rfl
@[simp] theorem putFb_staging (i : Nat) (bs : List Byte) (s : State) : (putFb i bs s).staging = s.staging := rfl
@[simp] theorem putFb_active (i : Nat) (bs : List Byte) (s : State) : (putFb i bs s).active = s.active := rfl
@[simp] theorem putFb_frameBuf (i : Nat) (bs : List Byte) (s : State) : (putFb i bs s).frameBuf = Memory.writeBytes s.frameBuf i bs := rfl
@[simp] theorem putFb_rxBuf (i : Nat) (bs : List Byte) (s : State) : (putFb i bs s).rxBuf = s.rxBuf := rfl
@[simp] theorem putFb_lastTx (i : Nat) (bs : List Byte) (s : State) : (putFb i bs s).lastTx = s.lastTx := rfl
@[simp] theorem putFb_lastRx (i : Nat) (bs : List Byte) (s : State) : (putFb i bs s).lastRx = s.lastRx := rfl
@[simp] theorem putFb_evq (i : Nat) (bs : List Byte) (s : State) : (putFb i bs s).evq = s.evq := rfl
@[simp] theorem putFb_trx (i : Nat) (bs : List Byte) (s : State) : (putFb i bs s).trx = s.trx := rfl
@[simp] theorem putFb_ttx (i : Nat) (bs : List Byte) (s : State) : (putFb i bs s).ttx = s.ttx := rfl
@[simp] theorem putFb_params (i : Nat) (bs : List Byte) (s : State) : (putFb i bs s).params = s.params := rfl
@[simp] theorem putFb_agenda (i : Nat) (bs : List Byte) (s : State) : (putFb i bs s).agenda = s.agenda := rfl
@[simp] theorem putFb_openDraw (i : Nat) (bs : List Byte) (s : State) : (putFb i bs s).openDraw = s.openDraw := rfl
@[simp] theorem putFb_writeDraw (i : Nat) (bs : List Byte) (s : State) : (putFb i bs s).writeDraw = s.writeDraw := rfl
@[simp] theorem putFb_readDraw (i : Nat) (bs : List Byte) (s : State) : (putFb i bs s).readDraw = s.readDraw := rfl
@[simp] theorem putFb_drawCount (i : Nat) (bs : List Byte) (s : State) : (putFb i bs s).drawCount = s.drawCount := rfl
@[simp] theorem putFb_busData (i : Nat) (bs : List Byte) (s : State) : (putFb i bs s).busData = s.busData := rfl

/-! ### countIoErr -/

@[simp] theorem countIoErr_variant (s : State) : (countIoErr s).variant = s.variant := rfl
@[simp] theorem countIoErr_irqEn (s : State) : (countIoErr s).irqEn = s.irqEn := rfl
@[simp] theorem countIoErr_running (s : State) : (countIoErr s).running = s.running := rfl
@[simp] theorem countIoErr_link (s : State) : (countIoErr s).link = s.link := rfl
@[simp] theorem countIoErr_openFail (s : State) : (countIoErr s).openFail = s.openFail := rfl
@[simp] theorem countIoErr_evqOvf (s : State) : (countIoErr s).evqOvf = s.evqOvf := rfl
@[simp] theorem countIoErr_result (s : State) : (countIoErr s).result = s.result := rfl
@[simp] theorem countIoErr_crc (s : State) : (countIoErr s).crc = s.crc := rfl
@[simp] theorem countIoErr_ck8 (s : State) : (countIoErr s).ck8 = s.ck8 := rfl
@[simp] theorem countIoErr_seq (s : State) : (countIoErr s).seq = s.seq := rfl
@[simp] theorem countIoErr_tTx (s : State) : (countIoErr s).tTx = s.tTx := rfl
@[simp] theorem countIoErr_tWd (s : State) : (countIoErr s).tWd = s.tWd := rfl
@[simp] theorem countIoErr_now (s : State) : (countIoErr s).now = s.now := rfl
@[simp] theorem countIoErr_nowHiLatch (s : State) : (countIoErr s).nowHiLatch = s.nowHiLatch := rfl
@[simp] theorem countIoErr_frameLen (s : State) : (countIoErr s).frameLen = s.frameLen := rfl
@[simp] theorem countIoErr_ioErrCnt (s : State) : (countIoErr s).ioErrCnt = satInc16 s.ioErrCnt := rfl
@[simp] theorem countIoErr_subIdA (s : State) : (countIoErr s).subIdA = s.subIdA := rfl
@[simp] theorem countIoErr_staging (s : State) : (countIoErr s).staging = s.staging := rfl
@[simp] theorem countIoErr_active (s : State) : (countIoErr s).active = s.active := rfl
@[simp] theorem countIoErr_frameBuf (s : State) : (countIoErr s).frameBuf = s.frameBuf := rfl
@[simp] theorem countIoErr_rxBuf (s : State) : (countIoErr s).rxBuf = s.rxBuf := rfl
@[simp] theorem countIoErr_lastTx (s : State) : (countIoErr s).lastTx = s.lastTx := rfl
@[simp] theorem countIoErr_lastRx (s : State) : (countIoErr s).lastRx = s.lastRx := rfl
@[simp] theorem countIoErr_evq (s : State) : (countIoErr s).evq = s.evq := rfl
@[simp] theorem countIoErr_trx (s : State) : (countIoErr s).trx = s.trx := rfl
@[simp] theorem countIoErr_ttx (s : State) : (countIoErr s).ttx = s.ttx := rfl
@[simp] theorem countIoErr_params (s : State) : (countIoErr s).params = s.params := rfl
@[simp] theorem countIoErr_agenda (s : State) : (countIoErr s).agenda = s.agenda := rfl
@[simp] theorem countIoErr_openDraw (s : State) : (countIoErr s).openDraw = s.openDraw := rfl
@[simp] theorem countIoErr_writeDraw (s : State) : (countIoErr s).writeDraw = s.writeDraw := rfl
@[simp] theorem countIoErr_readDraw (s : State) : (countIoErr s).readDraw = s.readDraw := rfl
@[simp] theorem countIoErr_drawCount (s : State) : (countIoErr s).drawCount = s.drawCount := rfl
@[simp] theorem countIoErr_busData (s : State) : (countIoErr s).busData = s.busData := rfl

/-! ### transportClose -/

@[simp] theorem transportClose_variant (s : State) : (transportClose s).variant = s.variant := rfl
@[simp] theorem transportClose_irqEn (s : State) : (transportClose s).irqEn = s.irqEn := rfl
@[simp] theorem transportClose_running (s : State) : (transportClose s).running = s.running := rfl
@[simp] theorem transportClose_link (s : State) : (transportClose s).link = s.link := rfl
@[simp] theorem transportClose_openFail (s : State) : (transportClose s).openFail = s.openFail := rfl
@[simp] theorem transportClose_evqOvf (s : State) : (transportClose s).evqOvf = s.evqOvf := rfl
@[simp] theorem transportClose_result (s : State) : (transportClose s).result = s.result := rfl
@[simp] theorem transportClose_crc (s : State) : (transportClose s).crc = s.crc := rfl
@[simp] theorem transportClose_ck8 (s : State) : (transportClose s).ck8 = s.ck8 := rfl
@[simp] theorem transportClose_seq (s : State) : (transportClose s).seq = s.seq := rfl
@[simp] theorem transportClose_tTx (s : State) : (transportClose s).tTx = s.tTx := rfl
@[simp] theorem transportClose_tWd (s : State) : (transportClose s).tWd = s.tWd := rfl
@[simp] theorem transportClose_now (s : State) : (transportClose s).now = s.now := rfl
@[simp] theorem transportClose_nowHiLatch (s : State) : (transportClose s).nowHiLatch = s.nowHiLatch := rfl
@[simp] theorem transportClose_frameLen (s : State) : (transportClose s).frameLen = s.frameLen := rfl
@[simp] theorem transportClose_ioErrCnt (s : State) : (transportClose s).ioErrCnt = s.ioErrCnt := rfl
@[simp] theorem transportClose_subIdA (s : State) : (transportClose s).subIdA = s.subIdA := rfl
@[simp] theorem transportClose_staging (s : State) : (transportClose s).staging = s.staging := rfl
@[simp] theorem transportClose_active (s : State) : (transportClose s).active = s.active := rfl
@[simp] theorem transportClose_frameBuf (s : State) : (transportClose s).frameBuf = s.frameBuf := rfl
@[simp] theorem transportClose_rxBuf (s : State) : (transportClose s).rxBuf = s.rxBuf := rfl
@[simp] theorem transportClose_lastTx (s : State) : (transportClose s).lastTx = s.lastTx := rfl
@[simp] theorem transportClose_lastRx (s : State) : (transportClose s).lastRx = s.lastRx := rfl
@[simp] theorem transportClose_evq (s : State) : (transportClose s).evq = s.evq := rfl
@[simp] theorem transportClose_trx (s : State) : (transportClose s).trx = [] := rfl
@[simp] theorem transportClose_ttx (s : State) : (transportClose s).ttx = s.ttx := rfl
@[simp] theorem transportClose_params (s : State) : (transportClose s).params = s.params := rfl
@[simp] theorem transportClose_agenda (s : State) : (transportClose s).agenda = s.agenda := rfl
@[simp] theorem transportClose_openDraw (s : State) : (transportClose s).openDraw = s.openDraw := rfl
@[simp] theorem transportClose_writeDraw (s : State) : (transportClose s).writeDraw = s.writeDraw := rfl
@[simp] theorem transportClose_readDraw (s : State) : (transportClose s).readDraw = s.readDraw := rfl
@[simp] theorem transportClose_drawCount (s : State) : (transportClose s).drawCount = s.drawCount := rfl
@[simp] theorem transportClose_busData (s : State) : (transportClose s).busData = s.busData := rfl

/-! ### enqueue -/

@[simp] theorem enqueue_variant (ev : Event) (s : State) : (enqueue ev s).variant = s.variant := by unfold enqueue; split <;> rfl
@[simp] theorem enqueue_irqEn (ev : Event) (s : State) : (enqueue ev s).irqEn = s.irqEn := by unfold enqueue; split <;> rfl
@[simp] theorem enqueue_running (ev : Event) (s : State) : (enqueue ev s).running = s.running := by unfold enqueue; split <;> rfl
@[simp] theorem enqueue_link (ev : Event) (s : State) : (enqueue ev s).link = s.link := by unfold enqueue; split <;> rfl
@[simp] theorem enqueue_openFail (ev : Event) (s : State) : (enqueue ev s).openFail = s.openFail := by unfold enqueue; split <;> rfl
@[simp] theorem enqueue_result (ev : Event) (s : State) : (enqueue ev s).result = s.result := by unfold enqueue; split <;> rfl
@[simp] theorem enqueue_crc (ev : Event) (s : State) : (enqueue ev s).crc = s.crc := by unfold enqueue; split <;> rfl
@[simp] theorem enqueue_ck8 (ev : Event) (s : State) : (enqueue ev s).ck8 = s.ck8 := by unfold enqueue; split <;> rfl
@[simp] theorem enqueue_seq (ev : Event) (s : State) : (enqueue ev s).seq = s.seq := by unfold enqueue; split <;> rfl
@[simp] theorem enqueue_tTx (ev : Event) (s : State) : (enqueue ev s).tTx = s.tTx := by unfold enqueue; split <;> rfl
@[simp] theorem enqueue_tWd (ev : Event) (s : State) : (enqueue ev s).tWd = s.tWd := by unfold enqueue; split <;> rfl
@[simp] theorem enqueue_now (ev : Event) (s : State) : (enqueue ev s).now = s.now := by unfold enqueue; split <;> rfl
@[simp] theorem enqueue_nowHiLatch (ev : Event) (s : State) : (enqueue ev s).nowHiLatch = s.nowHiLatch := by unfold enqueue; split <;> rfl
@[simp] theorem enqueue_frameLen (ev : Event) (s : State) : (enqueue ev s).frameLen = s.frameLen := by unfold enqueue; split <;> rfl
@[simp] theorem enqueue_ioErrCnt (ev : Event) (s : State) : (enqueue ev s).ioErrCnt = s.ioErrCnt := by unfold enqueue; split <;> rfl
@[simp] theorem enqueue_subIdA (ev : Event) (s : State) : (enqueue ev s).subIdA = s.subIdA := by unfold enqueue; split <;> rfl
@[simp] theorem enqueue_staging (ev : Event) (s : State) : (enqueue ev s).staging = s.staging := by unfold enqueue; split <;> rfl
@[simp] theorem enqueue_active (ev : Event) (s : State) : (enqueue ev s).active = s.active := by unfold enqueue; split <;> rfl
@[simp] theorem enqueue_frameBuf (ev : Event) (s : State) : (enqueue ev s).frameBuf = s.frameBuf := by unfold enqueue; split <;> rfl
@[simp] theorem enqueue_rxBuf (ev : Event) (s : State) : (enqueue ev s).rxBuf = s.rxBuf := by unfold enqueue; split <;> rfl
@[simp] theorem enqueue_lastTx (ev : Event) (s : State) : (enqueue ev s).lastTx = s.lastTx := by unfold enqueue; split <;> rfl
@[simp] theorem enqueue_lastRx (ev : Event) (s : State) : (enqueue ev s).lastRx = s.lastRx := by unfold enqueue; split <;> rfl
@[simp] theorem enqueue_trx (ev : Event) (s : State) : (enqueue ev s).trx = s.trx := by unfold enqueue; split <;> rfl
@[simp] theorem enqueue_ttx (ev : Event) (s : State) : (enqueue ev s).ttx = s.ttx := by unfold enqueue; split <;> rfl
@[simp] theorem enqueue_params (ev : Event) (s : State) : (enqueue ev s).params = s.params := by unfold enqueue; split <;> rfl
@[simp] theorem enqueue_agenda (ev : Event) (s : State) : (enqueue ev s).agenda = s.agenda := by unfold enqueue; split <;> rfl
@[simp] theorem enqueue_openDraw (ev : Event) (s : State) : (enqueue ev s).openDraw = s.openDraw := by unfold enqueue; split <;> rfl
@[simp] theorem enqueue_writeDraw (ev : Event) (s : State) : (enqueue ev s).writeDraw = s.writeDraw := by unfold enqueue; split <;> rfl
@[simp] theorem enqueue_readDraw (ev : Event) (s : State) : (enqueue ev s).readDraw = s.readDraw := by unfold enqueue; split <;> rfl
@[simp] theorem enqueue_drawCount (ev : Event) (s : State) : (enqueue ev s).drawCount = s.drawCount := by unfold enqueue; split <;> rfl
@[simp] theorem enqueue_busData (ev : Event) (s : State) : (enqueue ev s).busData = s.busData := by unfold enqueue; split <;> rfl

/-! ### transportWrite -/

@[simp] theorem transportWrite_variant (F : List Byte) (s : State) : (transportWrite F s).variant = s.variant := by unfold transportWrite; split <;> rfl
@[simp] theorem transportWrite_irqEn (F : List Byte) (s : State) : (transportWrite F s).irqEn = s.irqEn := by unfold transportWrite; split <;> rfl
@[simp] theorem transportWrite_running (F : List Byte) (s : State) : (transportWrite F s).running = s.running := by unfold transportWrite; split <;> rfl
@[simp] theorem transportWrite_link (F : List Byte) (s : State) : (transportWrite F s).link = s.link := by unfold transportWrite; split <;> rfl
@[simp] theorem transportWrite_openFail (F : List Byte) (s : State) : (transportWrite F s).openFail = s.openFail := by unfold transportWrite; split <;> rfl
@[simp] theorem transportWrite_evqOvf (F : List Byte) (s : State) : (transportWrite F s).evqOvf = s.evqOvf := by unfold transportWrite; split <;> rfl
@[simp] theorem transportWrite_result (F : List Byte) (s : State) : (transportWrite F s).result = s.result := by unfold transportWrite; split <;> rfl
@[simp] theorem transportWrite_crc (F : List Byte) (s : State) : (transportWrite F s).crc = s.crc := by unfold transportWrite; split <;> rfl
@[simp] theorem transportWrite_ck8 (F : List Byte) (s : State) : (transportWrite F s).ck8 = s.ck8 := by unfold transportWrite; split <;> rfl
@[simp] theorem transportWrite_seq (F : List Byte) (s : State) : (transportWrite F s).seq = s.seq := by unfold transportWrite; split <;> rfl
@[simp] theorem transportWrite_tTx (F : List Byte) (s : State) : (transportWrite F s).tTx = s.tTx := by unfold transportWrite; split <;> rfl
@[simp] theorem transportWrite_tWd (F : List Byte) (s : State) : (transportWrite F s).tWd = s.tWd := by unfold transportWrite; split <;> rfl
@[simp] theorem transportWrite_now (F : List Byte) (s : State) : (transportWrite F s).now = s.now := by unfold transportWrite; split <;> rfl
@[simp] theorem transportWrite_nowHiLatch (F : List Byte) (s : State) : (transportWrite F s).nowHiLatch = s.nowHiLatch := by unfold transportWrite; split <;> rfl
@[simp] theorem transportWrite_frameLen (F : List Byte) (s : State) : (transportWrite F s).frameLen = s.frameLen := by unfold transportWrite; split <;> rfl
@[simp] theorem transportWrite_subIdA (F : List Byte) (s : State) : (transportWrite F s).subIdA = s.subIdA := by unfold transportWrite; split <;> rfl
@[simp] theorem transportWrite_staging (F : List Byte) (s : State) : (transportWrite F s).staging = s.staging := by unfold transportWrite; split <;> rfl
@[simp] theorem transportWrite_active (F : List Byte) (s : State) : (transportWrite F s).active = s.active := by unfold transportWrite; split <;> rfl
@[simp] theorem transportWrite_frameBuf (F : List Byte) (s : State) : (transportWrite F s).frameBuf = s.frameBuf := by unfold transportWrite; split <;> rfl
@[simp] theorem transportWrite_rxBuf (F : List Byte) (s : State) : (transportWrite F s).rxBuf = s.rxBuf := by unfold transportWrite; split <;> rfl
@[simp] theorem transportWrite_lastTx (F : List Byte) (s : State) : (transportWrite F s).lastTx = s.lastTx := by unfold transportWrite; split <;> rfl
@[simp] theorem transportWrite_lastRx (F : List Byte) (s : State) : (transportWrite F s).lastRx = s.lastRx := by unfold transportWrite; split <;> rfl
@[simp] theorem transportWrite_evq (F : List Byte) (s : State) : (transportWrite F s).evq = s.evq := by unfold transportWrite; split <;> rfl
@[simp] theorem transportWrite_trx (F : List Byte) (s : State) : (transportWrite F s).trx = s.trx := by unfold transportWrite; split <;> rfl
@[simp] theorem transportWrite_params (F : List Byte) (s : State) : (transportWrite F s).params = s.params := by unfold transportWrite; split <;> rfl
@[simp] theorem transportWrite_agenda (F : List Byte) (s : State) : (transportWrite F s).agenda = s.agenda := by unfold transportWrite; split <;> rfl
@[simp] theorem transportWrite_openDraw (F : List Byte) (s : State) : (transportWrite F s).openDraw = s.openDraw := by unfold transportWrite; split <;> rfl
@[simp] theorem transportWrite_writeDraw (F : List Byte) (s : State) : (transportWrite F s).writeDraw = s.writeDraw := by unfold transportWrite; split <;> rfl
@[simp] theorem transportWrite_readDraw (F : List Byte) (s : State) : (transportWrite F s).readDraw = s.readDraw := by unfold transportWrite; split <;> rfl
@[simp] theorem transportWrite_drawCount (F : List Byte) (s : State) : (transportWrite F s).drawCount = s.drawCount := by unfold transportWrite; split <;> rfl
@[simp] theorem transportWrite_busData (F : List Byte) (s : State) : (transportWrite F s).busData = s.busData := by unfold transportWrite; split <;> rfl

/-! ### afterChoice -/

@[simp] theorem afterChoice_variant (s : State) : (afterChoice s).variant = s.variant := rfl
@[simp] theorem afterChoice_irqEn (s : State) : (afterChoice s).irqEn = s.irqEn := rfl
@[simp] theorem afterChoice_running (s : State) : (afterChoice s).running = s.running := rfl
@[simp] theorem afterChoice_link (s : State) : (afterChoice s).link = s.link := rfl
@[simp] theorem afterChoice_openFail (s : State) : (afterChoice s).openFail = s.openFail := rfl
@[simp] theorem afterChoice_evqOvf (s : State) : (afterChoice s).evqOvf = s.evqOvf := rfl
@[simp] theorem afterChoice_result (s : State) : (afterChoice s).result = s.result := rfl
@[simp] theorem afterChoice_crc (s : State) : (afterChoice s).crc = s.crc := rfl
@[simp] theorem afterChoice_ck8 (s : State) : (afterChoice s).ck8 = s.ck8 := rfl
@[simp] theorem afterChoice_seq (s : State) : (afterChoice s).seq = s.seq := rfl
@[simp] theorem afterChoice_tTx (s : State) : (afterChoice s).tTx = s.tTx := rfl
@[simp] theorem afterChoice_tWd (s : State) : (afterChoice s).tWd = s.tWd := rfl
@[simp] theorem afterChoice_now (s : State) : (afterChoice s).now = s.now := rfl
@[simp] theorem afterChoice_nowHiLatch (s : State) : (afterChoice s).nowHiLatch = s.nowHiLatch := rfl
@[simp] theorem afterChoice_frameLen (s : State) : (afterChoice s).frameLen = s.frameLen := rfl
@[simp] theorem afterChoice_ioErrCnt (s : State) : (afterChoice s).ioErrCnt = s.ioErrCnt := rfl
@[simp] theorem afterChoice_subIdA (s : State) : (afterChoice s).subIdA = s.subIdA := rfl
@[simp] theorem afterChoice_staging (s : State) : (afterChoice s).staging = s.staging := rfl
@[simp] theorem afterChoice_active (s : State) : (afterChoice s).active = s.active := rfl
@[simp] theorem afterChoice_frameBuf (s : State) : (afterChoice s).frameBuf = s.frameBuf := rfl
@[simp] theorem afterChoice_rxBuf (s : State) : (afterChoice s).rxBuf = s.rxBuf := rfl
@[simp] theorem afterChoice_lastTx (s : State) : (afterChoice s).lastTx = s.lastTx := rfl
@[simp] theorem afterChoice_lastRx (s : State) : (afterChoice s).lastRx = s.lastRx := rfl
@[simp] theorem afterChoice_evq (s : State) : (afterChoice s).evq = s.evq := rfl
@[simp] theorem afterChoice_trx (s : State) : (afterChoice s).trx = s.trx := rfl
@[simp] theorem afterChoice_ttx (s : State) : (afterChoice s).ttx = s.ttx := rfl
@[simp] theorem afterChoice_params (s : State) : (afterChoice s).params = s.params := rfl
@[simp] theorem afterChoice_agenda (s : State) : (afterChoice s).agenda = s.agenda.tail := rfl
@[simp] theorem afterChoice_openDraw (s : State) : (afterChoice s).openDraw = s.openDraw := rfl
@[simp] theorem afterChoice_writeDraw (s : State) : (afterChoice s).writeDraw = s.writeDraw := rfl
@[simp] theorem afterChoice_readDraw (s : State) : (afterChoice s).readDraw = s.readDraw := rfl
@[simp] theorem afterChoice_drawCount (s : State) : (afterChoice s).drawCount = s.drawCount + 1 := rfl
@[simp] theorem afterChoice_busData (s : State) : (afterChoice s).busData = s.busData := rfl

/-! ### setRxBuf -/

@[simp] theorem setRxBuf_variant (l : List Byte) (s : State) : (setRxBuf l s).variant = s.variant := rfl
@[simp] theorem setRxBuf_irqEn (l : List Byte) (s : State) : (setRxBuf l s).irqEn = s.irqEn := rfl
@[simp] theorem setRxBuf_running (l : List Byte) (s : State) : (setRxBuf l s).running = s.running := rfl
@[simp] theorem setRxBuf_link (l : List Byte) (s : State) : (setRxBuf l s).link = s.link := rfl
@[simp] theorem setRxBuf_openFail (l : List Byte) (s : State) : (setRxBuf l s).openFail = s.openFail := rfl
@[simp] theorem setRxBuf_evqOvf (l : List Byte) (s : State) : (setRxBuf l s).evqOvf = s.evqOvf := rfl
@[simp] theorem setRxBuf_result (l : List Byte) (s : State) : (setRxBuf l s).result = s.result := rfl
@[simp] theorem setRxBuf_crc (l : List Byte) (s : State) : (setRxBuf l s).crc = s.crc := rfl
@[simp] theorem setRxBuf_ck8 (l : List Byte) (s : State) : (setRxBuf l s).ck8 = s.ck8 := rfl
@[simp] theorem setRxBuf_seq (l : List Byte) (s : State) : (setRxBuf l s).seq = s.seq := rfl
@[simp] theorem setRxBuf_tTx (l : List Byte) (s : State) : (setRxBuf l s).tTx = s.tTx := rfl
@[simp] theorem setRxBuf_tWd (l : List Byte) (s : State) : (setRxBuf l s).tWd = s.tWd := rfl
@[simp] theorem setRxBuf_now (l : List Byte) (s : State) : (setRxBuf l s).now = s.now := rfl
@[simp] theorem setRxBuf_nowHiLatch (l : List Byte) (s : State) : (setRxBuf l s).nowHiLatch = s.nowHiLatch := rfl
@[simp] theorem setRxBuf_frameLen (l : List Byte) (s : State) : (setRxBuf l s).frameLen = s.frameLen := rfl
@[simp] theorem setRxBuf_ioErrCnt (l : List Byte) (s : State) : (setRxBuf l s).ioErrCnt = s.ioErrCnt := rfl
@[simp] theorem setRxBuf_subIdA (l : List Byte) (s : State) : (setRxBuf l s).subIdA = s.subIdA := rfl
@[simp] theorem setRxBuf_staging (l : List Byte) (s : State) : (setRxBuf l s).staging = s.staging := rfl
@[simp] theorem setRxBuf_active (l : List Byte) (s : State) : (setRxBuf l s).active = s.active := rfl
@[simp] theorem setRxBuf_frameBuf (l : List Byte) (s : State) : (setRxBuf l s).frameBuf = s.frameBuf := rfl
@[simp] theorem setRxBuf_rxBuf (l : List Byte) (s : State) : (setRxBuf l s).rxBuf = l := rfl
@[simp] theorem setRxBuf_lastTx (l : List Byte) (s : State) : (setRxBuf l s).lastTx = s.lastTx := rfl
@[simp] theorem setRxBuf_lastRx (l : List Byte) (s : State) : (setRxBuf l s).lastRx = s.lastRx := rfl
@[simp] theorem setRxBuf_evq (l : List Byte) (s : State) : (setRxBuf l s).evq = s.evq := rfl
@[simp] theorem setRxBuf_trx (l : List Byte) (s : State) : (setRxBuf l s).trx = s.trx := rfl
@[simp] theorem setRxBuf_ttx (l : List Byte) (s : State) : (setRxBuf l s).ttx = s.ttx := rfl
@[simp] theorem setRxBuf_params (l : List Byte) (s : State) : (setRxBuf l s).params = s.params := rfl
@[simp] theorem setRxBuf_agenda (l : List Byte) (s : State) : (setRxBuf l s).agenda = s.agenda := rfl
@[simp] theorem setRxBuf_openDraw (l : List Byte) (s : State) : (setRxBuf l s).openDraw = s.openDraw := rfl
@[simp] theorem setRxBuf_writeDraw (l : List Byte) (s : State) : (setRxBuf l s).writeDraw = s.writeDraw := rfl
@[simp] theorem setRxBuf_readDraw (l : List Byte) (s : State) : (setRxBuf l s).readDraw = s.readDraw := rfl
@[simp] theorem setRxBuf_drawCount (l : List Byte) (s : State) : (setRxBuf l s).drawCount = s.drawCount := rfl
@[simp] theorem setRxBuf_busData (l : List Byte) (s : State) : (setRxBuf l s).busData = s.busData := rfl

/-! ### Reads of FRAMEBUF see only FRAMEBUF -/

@[simp] theorem raise_fb (c : ResultCode) (s : State) (i : Nat) : (raise c s).fb i = s.fb i := rfl
@[simp] theorem raise_fbBytes (c : ResultCode) (s : State) (n : Nat) : (raise c s).fbBytes n = s.fbBytes n := rfl
@[simp] theorem afterChoice_fb (s : State) (i : Nat) : (afterChoice s).fb i = s.fb i := rfl

/-- `FB[0 .. n-1]` byte by byte. -/
theorem fbBytes_eq (s : State) (n : Nat) : s.fbBytes n = (List.range n).map s.fb := by
  simp [State.fbBytes, Memory.readBytes, State.fb]

end Sys2Proof.Machine
end

