-- ==== Sys2Proof/Laws/Ops.lean ====
section
/-! SUPPORT. One lemma per shared operation that says everything it can do. -/

namespace Sys2Proof.Machine

/-- What `enqueue` does: the event is appended, or the overflow bit is set (43_link R240). -/
theorem enqueue_cases (ev : Event) (s : State) :
    (s.evq.length < s.params.evqDepth ∧ enqueue ev s = { s with evq := s.evq ++ [ev] }) ∨
      (s.params.evqDepth ≤ s.evq.length ∧ enqueue ev s = { s with evqOvf := true }) := by
  unfold enqueue
  split
  · exact .inl ⟨‹_›, rfl⟩
  · exact .inr ⟨by omega, rfl⟩

/-- The queue only grows, and by sound means: what `enqueue` adds is the event or nothing. -/
theorem enqueue_evq (ev : Event) (s : State) : (enqueue ev s).evq = s.evq ++ [ev] ∨ (enqueue ev s).evq = s.evq := by
  rcases enqueue_cases ev s with ⟨_, h⟩ | ⟨_, h⟩ <;> simp [h]

theorem enqueue_evq_length {ev : Event} {s : State} (h : s.evq.length ≤ s.params.evqDepth) :
    (enqueue ev s).evq.length ≤ s.params.evqDepth := by
  rcases enqueue_cases ev s with ⟨hl, hs⟩ | ⟨_, hs⟩ <;> rw [hs]
  · simp; omega
  · exact h

/-- What `transportWrite` does: all of the frame to TTX, or a proper prefix and one more counted error (43_link R252). -/
theorem transportWrite_cases (F : List Byte) (s : State) :
    (writeOutcome s = .ok ∧ transportWrite F s = { s with ttx := s.ttx ++ F }) ∨
      ∃ k, writeOutcome s = .err k ∧
        transportWrite F s =
          { s with ttx := s.ttx ++ F.take (sentOnError k F.length), ioErrCnt := satInc16 s.ioErrCnt } := by
  unfold transportWrite
  split
  · exact .inl ⟨‹_›, rfl⟩
  · exact .inr ⟨_, ‹_›, rfl⟩

theorem sentOnError_lt {m : Nat} (hm : 0 < m) (k : Nat) : sentOnError k m < m := by
  unfold sentOnError; omega

/-- What `transportRead` does: some first bytes leave TRX, or nothing happens and the read failed (43_link R253). -/
theorem transportRead_cases (s : State) :
    (∃ k, k ≤ s.trx.length ∧ transportRead s = (some (s.trx.take k), { s with trx := s.trx.drop k })) ∨
      (readOutcome s = .err ∧ transportRead s = (none, s)) := by
  unfold transportRead
  split
  · exact .inl ⟨s.trx.length, Nat.le_refl _, by simp⟩
  · rename_i k _
    refine .inl ⟨min k s.trx.length, Nat.min_le_right _ _, ?_⟩
    rcases Nat.le_total k s.trx.length with hk | hk
    · rw [Nat.min_eq_left hk]
    · rw [Nat.min_eq_right hk, List.take_of_length_le hk, List.drop_eq_nil_of_le hk]; simp
  · exact .inr ⟨‹_›, rfl⟩

/-! ### The synchronizer -/

theorem Params.three_le_nB (p : Params) : 3 ≤ p.nB := Nat.le_add_left 3 _

theorem Params.nB_le (p : Params) : p.nB ≤ 255 := by
  have := p.nBIndex.isLt
  unfold Params.nB; omega

theorem Params.evqDepth_pos (p : Params) : 0 < p.evqDepth := Nat.succ_pos _

theorem Params.evqDepth_le (p : Params) : p.evqDepth ≤ 255 := by
  have := p.depthIndex.isLt
  unfold Params.evqDepth; omega

theorem three_le_frameSize (p : Params) (f : Format) : 3 ≤ frameSize p f := by
  have := Params.three_le_nB p
  cases f <;> simp only [frameSize] <;> omega

theorem frameSize_le (p : Params) (f : Format) : frameSize p f ≤ 255 := by
  have := Params.nB_le p
  cases f <;> simp only [frameSize] <;> omega

theorem dropWhile_length_le (h : Byte) (buf : List Byte) :
    (buf.dropWhile (fun b => b != h)).length ≤ buf.length :=
  (List.dropWhile_suffix _).length_le

theorem head_of_dropWhile {h c : Byte} {buf rest : List Byte}
    (e : buf.dropWhile (fun b => b != h) = c :: rest) : c = h := by
  have := List.head_dropWhile_not (fun b => b != h) (l := buf) (by rw [e]; simp)
  simpa [e] using this

/-- What the resynchronization loop gives: every frame emitted has the frame size, starts with the header and passes the check, and
fewer bytes than a frame stay (42_sync R192, R194). -/
theorem resync_spec {n : Nat} (hn : 0 < n) (h : Byte) (valid : List Byte → Bool) :
    ∀ (fuel : Nat) (buf : List Byte), buf.length < fuel →
      (∀ F ∈ (resync n h valid fuel buf).1, F.length = n ∧ F.head? = some h ∧ valid F = true) ∧
        (resync n h valid fuel buf).2.length < n := by
  intro fuel
  induction fuel with
  | zero => intro buf hb; omega
  | succ fuel ih =>
    intro buf hb
    have hlen := dropWhile_length_le h buf
    unfold resync
    split
    · simpa using hn
    · rename_i c rest e
      have hc := head_of_dropWhile e
      rw [e] at hlen
      by_cases h1 : (c :: rest).length < n
      · rw [if_pos h1]
        exact ⟨by simp, h1⟩
      · rw [if_neg h1]
        have hframe : ((c :: rest).take n).length = n ∧ ((c :: rest).take n).head? = some h := by
          refine ⟨by rw [List.length_take]; omega, ?_⟩
          obtain ⟨m, rfl⟩ : ∃ m, n = m + 1 := ⟨n - 1, by omega⟩
          simp [hc]
        by_cases h2 : valid ((c :: rest).take n) = true
        · rw [if_pos h2]
          by_cases h3 : ((c :: rest).drop n).length < n
          · rw [if_pos h3]
            exact ⟨fun F hF => List.mem_singleton.mp hF ▸ ⟨hframe.1, hframe.2, h2⟩, h3⟩
          · rw [if_neg h3]
            have := ih ((c :: rest).drop n) (by rw [List.length_drop]; omega)
            refine ⟨fun F hF => ?_, this.2⟩
            rcases List.mem_cons.mp hF with hF | hF
            · exact hF ▸ ⟨hframe.1, hframe.2, h2⟩
            · exact this.1 F hF
        · rw [if_neg h2]
          exact ih rest (by simp at hlen hb ⊢; omega)

/-- What one byte fed gives, from any buffer (42_sync R192, R194). -/
theorem feedByte_spec {n : Nat} (hn : 0 < n) (h : Byte) (valid : List Byte → Bool) (buf : List Byte) (b : Byte) :
    (∀ F ∈ (feedByte n h valid buf b).1, F.length = n ∧ F.head? = some h ∧ valid F = true) ∧
      (feedByte n h valid buf b).2.length < n := by
  unfold feedByte
  split
  · exact ⟨by simp, ‹_›⟩
  · exact resync_spec hn h valid _ _ (by simp)

/-- `feed1` keeps every view of the state that neither RXBUF nor the caller's `emit` changes. -/
theorem feed1_preserves {α : Type} (f : State → α) {emit : List Byte → State → State}
    (hr : ∀ (s : State) (l : List Byte), f { s with rxBuf := l } = f s) (he : ∀ F s, f (emit F s) = f s)
    (b : Byte) (s : State) : f (feed1 emit b s) = f s := by
  unfold feed1
  generalize (feedByte (rxSize s) (rxHeader s) (rxValid s) s.rxBuf b) = r
  obtain ⟨fs, buf⟩ := r
  have : ∀ (fs : List (List Byte)) (t : State), f (fs.foldl (fun t F => emit F t) t) = f t := by
    intro fs
    induction fs with
    | nil => intro t; rfl
    | cons F fs ih => intro t; rw [List.foldl_cons, ih, he]
  rw [this]
  exact hr s buf

theorem feedAll_preserves {α : Type} (f : State → α) {emit : List Byte → State → State}
    (hr : ∀ (s : State) (l : List Byte), f { s with rxBuf := l } = f s) (he : ∀ F s, f (emit F s) = f s)
    (bs : List Byte) : ∀ s : State, f (feedAll emit bs s) = f s := by
  induction bs with
  | nil => intro s; rfl
  | cons b bs ih => intro s; rw [feedAll, List.foldl_cons]; exact (ih _).trans (feed1_preserves f hr he b s)

/-- What `feedAll` does, for an `emit` that neither reads nor changes RXBUF and keeps what the synchronizer reads: RXBUF is what the
synchronizer leaves of the bytes, and every frame is emitted, in the order of the stream (42_sync R191, R192). -/
theorem feedAll_eq {emit : List Byte → State → State} (hb : ∀ F l s, emit F (setRxBuf l s) = setRxBuf l (emit F s))
    (hp : ∀ F s, (emit F s).params = s.params) (hv : ∀ F s, (emit F s).variant = s.variant) (bs : List Byte) :
    ∀ s : State, feedAll emit bs s =
      setRxBuf (feedStream (rxSize s) (rxHeader s) (rxValid s) s.rxBuf bs).2
        ((feedStream (rxSize s) (rxHeader s) (rxValid s) s.rxBuf bs).1.foldl (fun t F => emit F t) s) := by
  have hfold : ∀ (fs : List (List Byte)) (l : List Byte) (s : State),
      fs.foldl (fun t F => emit F t) (setRxBuf l s) = setRxBuf l (fs.foldl (fun t F => emit F t) s) := by
    intro fs l
    induction fs with
    | nil => intro s; rfl
    | cons F fs ih => intro s; rw [List.foldl_cons, List.foldl_cons, hb, ih]
  have hkeep : ∀ (fs : List (List Byte)) (s : State),
      (fs.foldl (fun t F => emit F t) s).params = s.params ∧ (fs.foldl (fun t F => emit F t) s).variant = s.variant := by
    intro fs
    induction fs with
    | nil => intro s; exact ⟨rfl, rfl⟩
    | cons F fs ih => intro s; exact ⟨(ih _).1.trans (hp F s), (ih _).2.trans (hv F s)⟩
  induction bs with
  | nil => intro s; rfl
  | cons b bs ih =>
    intro s
    obtain ⟨r, hr⟩ : ∃ r, feedByte (rxSize s) (rxHeader s) (rxValid s) s.rxBuf b = r := ⟨_, rfl⟩
    obtain ⟨v, hv'⟩ : ∃ v, r.1.foldl (fun t F => emit F t) s = v := ⟨_, rfl⟩
    obtain ⟨h1, h2⟩ : v.params = s.params ∧ v.variant = s.variant := hv' ▸ hkeep r.1 s
    have e : feed1 emit b s = setRxBuf r.2 v := by rw [feed1, hr, ← hv']; exact hfold r.1 r.2 s
    have e2 : rxSize (setRxBuf r.2 v) = rxSize s := by simp [rxSize, setRxBuf, h1, h2]
    have e3 : rxHeader (setRxBuf r.2 v) = rxHeader s := by simp [rxHeader, setRxBuf, h2]
    have e4 : rxValid (setRxBuf r.2 v) = rxValid s := by funext F; simp [rxValid, setRxBuf, h1, h2]
    show feedAll emit bs (feed1 emit b s) = _
    rw [ih, e, e2, e3, e4, hfold]
    simp only [feedStream, hr, List.foldl_append, hv']
    rfl

/-- What a tick's emissions do (43_link R217, R240): with any frame LAST_RX is the tick's time, the first frames that fit are appended
in order, and EVQ_OVF is set where one is dropped. -/
theorem emitTick_foldl (t : Time) (fs : List (List Byte)) : ∀ s : State,
    fs.foldl (fun u F => emitTick t F u) s =
      { s with
        lastRx := if fs = [] then s.lastRx else t
        evq := s.evq ++ (fs.map Event.telemetry).take (s.params.evqDepth - s.evq.length)
        evqOvf := s.evqOvf || (!fs.isEmpty && decide (s.params.evqDepth < s.evq.length + fs.length)) } := by
  induction fs with
  | nil => intro s; simp
  | cons F fs ih =>
    intro s
    rw [List.foldl_cons, ih]
    rcases enqueue_cases (.telemetry F) { s with lastRx := t } with ⟨h, e⟩ | ⟨h, e⟩ <;> rw [emitTick, e] <;>
      simp only at h
    · rw [show s.params.evqDepth - s.evq.length = s.params.evqDepth - (s.evq.length + 1) + 1 by omega]
      cases fs with
      | nil => simp [Nat.not_lt.mpr (Nat.succ_le_of_lt h)]
      | cons G gs =>
        simp [Nat.add_assoc, Nat.add_left_comm, Nat.add_comm]
        rw [Nat.add_comm 1, List.take_succ_cons]
    · simp [Nat.sub_eq_zero_of_le h, show s.params.evqDepth < s.evq.length + (fs.length + 1) by omega]

/-- What the receive phase does with the bytes of a successful read (43_link R216, R217, R240). -/
theorem feedAll_emitTick (t : Time) (bs : List Byte) (s : State) :
    feedAll (emitTick t) bs s =
      { s with
        rxBuf := (feedStream (rxSize s) (rxHeader s) (rxValid s) s.rxBuf bs).2
        lastRx := if (feedStream (rxSize s) (rxHeader s) (rxValid s) s.rxBuf bs).1 = [] then s.lastRx else t
        evq := s.evq ++
          ((feedStream (rxSize s) (rxHeader s) (rxValid s) s.rxBuf bs).1.map Event.telemetry).take
            (s.params.evqDepth - s.evq.length)
        evqOvf := s.evqOvf || (!(feedStream (rxSize s) (rxHeader s) (rxValid s) s.rxBuf bs).1.isEmpty &&
          decide (s.params.evqDepth < s.evq.length +
            (feedStream (rxSize s) (rxHeader s) (rxValid s) s.rxBuf bs).1.length)) } := by
  have enq : ∀ (e : Event) (l : List Byte) (s : State), enqueue e (setRxBuf l s) = setRxBuf l (enqueue e s) := by
    intro e l s; unfold enqueue setRxBuf; split <;> rfl
  rw [feedAll_eq, emitTick_foldl]
  · rfl
  · intro F l s; exact enq _ l { s with lastRx := t }
  · intro F s; unfold emitTick enqueue; split <;> rfl
  · intro F s; unfold emitTick enqueue; split <;> rfl

/-! ### The tick and the steps -/

/-- What the transmit gate does (43_link R211, R212): nothing where it does not fire, else the four effects of a firing. -/
theorem transmitGate_cases (t : Time) (s : State) :
    (gateFires t s = false ∧ transmitGate t s = s) ∨
      (gateFires t s = true ∧ transmitGate t s =
        { transportWrite (encA s (s.seq + 1#16) s.active.ammo)
            { s with seq := s.seq + 1#16, active := { s.active with ammo := 0#32 } } with
          lastTx := t }) := by
  unfold transmitGate
  cases h : gateFires t s
  · exact .inl ⟨rfl, rfl⟩
  · exact .inr ⟨rfl, rfl⟩

/-- What the watchdog does (43_link R220). -/
theorem watchdog_cases (t : Time) (s : State) :
    (s.tWd.setWidth 64 < t - s.lastRx ∧ watchdog t s = enqueue .linkTimeout { s with link := .stale }) ∨
      (t - s.lastRx ≤ s.tWd.setWidth 64 ∧ watchdog t s = { s with link := .synced }) := by
  unfold watchdog watchdogExpired
  by_cases h : s.tWd.setWidth 64 < t - s.lastRx
  · exact .inl ⟨h, if_pos (by simpa using h)⟩
  · exact .inr ⟨BitVec.not_lt.mp h, if_neg (by simpa using h)⟩

/-- What the receive phase does (43_link R216). -/
theorem receive_cases (t : Time) (s : State) :
    (s.trx = [] ∧ receive t s = s) ∨
      (s.trx ≠ [] ∧ readOutcome s = .err ∧ receive t s = countIoErr s) ∨
      (s.trx ≠ [] ∧ ∃ k, k ≤ s.trx.length ∧
        receive t s = feedAll (emitTick t) (s.trx.take k) { s with trx := s.trx.drop k }) := by
  unfold receive
  split
  · exact .inl ⟨‹_›, rfl⟩
  · rename_i c rest e
    have hne : s.trx ≠ [] := by simp [e]
    rcases transportRead_cases s with ⟨k, hk, h⟩ | ⟨he, h⟩
    · exact .inr (.inr ⟨hne, k, hk, by rw [h]⟩)
    · exact .inr (.inl ⟨hne, he, by rw [h]⟩)

/-- Every instruction completes: `exec` always answers a next state. -/
theorem exec_next (i : Instr) (s : State) : ∃ t, exec i s = .next t := by
  cases i <;> exact ⟨_, rfl⟩

/-- A write to CMD always answers a next state. -/
theorem performCommand_next (w : Word) (s : State) : ∃ t, performCommand w s = .next t := by
  unfold performCommand
  split
  · exact exec_next _ _
  · exact ⟨_, rfl⟩

/-- A write to CMD is a legal command's meaning, or ILLEGAL. -/
theorem performCommand_cases (w : Word) (s : State) :
    (∃ i, decode w = .ok i ∧ performCommand w s = exec i s) ∨
      (∃ e, decode w = .error e ∧ performCommand w s = .next (raise .illegal s)) := by
  unfold performCommand
  split
  · exact .inl ⟨_, ‹_›, rfl⟩
  · exact .inr ⟨_, ‹_›, rfl⟩

/-- What a host write does: a command for CMD, a register write for any other register. -/
theorem hostWrite_cases (r : Register) (v : Word) (s : State) :
    (r = .cmd ∧ hostWrite r v s = performCommand v s) ∨
      (r ≠ .cmd ∧ hostWrite r v s = .next (writeRegister r v s)) := by
  cases r <;> first | exact .inl ⟨rfl, rfl⟩ | exact .inr ⟨by simp, rfl⟩

end Sys2Proof.Machine
end

