-- ==== Sys2Proof/Laws/PerInstr.lean ====
section
/-! SUPPORT. Per-instruction laws of the encoding: the three fields of a command's word (30_encoding R100, R105). -/

namespace Sys2Proof.Laws

/-- The fields of `OP | (IMM << 8)`. -/
theorem fields_of_word (op : Byte) (imm : Half) :
    topField (op.setWidth 32 ||| (imm.setWidth 32 <<< 8)) = 0#8 ∧ opField (op.setWidth 32 ||| (imm.setWidth 32 <<< 8)) = op ∧
      immField (op.setWidth 32 ||| (imm.setWidth 32 <<< 8)) = imm := by
  refine ⟨?_, ?_, ?_⟩ <;> ext i hi
  · simp only [topField, BitVec.getElem_extractLsb', BitVec.getLsbD_or, BitVec.getLsbD_setWidth, BitVec.getLsbD_shiftLeft,
      BitVec.getElem_zero]
    have h1 : op.getLsbD (24 + i) = false := BitVec.getLsbD_of_ge _ _ (by omega)
    have h2 : imm.getLsbD (24 + i - 8) = false := BitVec.getLsbD_of_ge _ _ (by omega)
    simp [h1, h2]
  · simp only [opField, BitVec.getElem_extractLsb', BitVec.getLsbD_or, BitVec.getLsbD_setWidth, BitVec.getLsbD_shiftLeft]
    simp [hi, show i < 32 by omega]
  · simp only [immField, BitVec.getElem_extractLsb', BitVec.getLsbD_or, BitVec.getLsbD_setWidth, BitVec.getLsbD_shiftLeft]
    simp [show 8 + i < 32 by omega, show i < 32 by omega, BitVec.getLsbD_eq_getElem hi]

end Sys2Proof.Laws

namespace Sys2Proof.Laws.EncodeFields

/-- A command's word has a zero top byte, the command's OP and the command's IMM. -/
def Statement (i : Instr) : Prop :=
  topField (encode i) = 0#8 ∧ opField (encode i) = opcode i ∧ immField (encode i) = immediate i

theorem nop : Statement .nop := fields_of_word _ _
theorem crcInit : Statement .crcInit := fields_of_word _ _
theorem crcByte (b : Byte) : Statement (.crcByte b) := fields_of_word _ _
theorem crcBuf (len : Half) : Statement (.crcBuf len) := fields_of_word _ _
theorem ck8Init : Statement .ck8Init := fields_of_word _ _
theorem ck8Byte (b : Byte) : Statement (.ck8Byte b) := fields_of_word _ _
theorem ck8Buf (len : Half) : Statement (.ck8Buf len) := fields_of_word _ _
theorem frmSeal (f : Format) : Statement (.frmSeal f) := fields_of_word _ _
theorem frmCheck (f : Format) : Statement (.frmCheck f) := fields_of_word _ _
theorem frmEncA : Statement .frmEncA := fields_of_word _ _
theorem frmEncD : Statement .frmEncD := fields_of_word _ _
theorem snapCommit : Statement .snapCommit := fields_of_word _ _
theorem syncFeed (b : Byte) : Statement (.syncFeed b) := fields_of_word _ _
theorem syncClr : Statement .syncClr := fields_of_word _ _
theorem linkStart : Statement .linkStart := fields_of_word _ _
theorem linkStop : Statement .linkStop := fields_of_word _ _
theorem linkSend : Statement .linkSend := fields_of_word _ _
theorem evqPop : Statement .evqPop := fields_of_word _ _

end Sys2Proof.Laws.EncodeFields
end

