-- ==== Sys2Proof/Tests/Slice0.lean ====
section
/-! SUPPORT. Tests and witnesses. The words come from the tables of 30_encoding R100 to R103, and the expected results from the vectors of
95_test_vectors, with their numbers. A theorem `witness_…` shows that the hypotheses of a statement can be met together. -/

namespace Sys2Proof.Tests

open Sys2Proof.Machine Sys2Proof.Claims

/-! ### Small states and helpers -/

/-- RESET_STATE with the parameters and draws of 95_test_vectors §0: N_B = 8, EVQ_DEPTH = 16, every open, write and read succeeds. -/
def base : State :=
  { State.reset with params := {}, openDraw := some .ok, writeDraw := some .ok, readDraw := some .all }

/-- A running link. -/
def up : State := { base with running := true }

/-- A running link whose queue of one place is full. -/
def upFull : State := { up with params := { depthIndex := 0 }, evq := [.connOpened] }

/-- A stopped link whose queue of one place is full. -/
def downFull : State := { base with params := { depthIndex := 0 }, evq := [.connOpened] }

/-- FRAMEBUF with these bytes from index 0. -/
def withFb (bs : List Byte) (s : State) : State := putFb 0 bs s

/-- The format C frame of V36. -/
def frameC : List Byte :=
  [0xA5#8, 0x01#8, 0x03#8, 0x00#8, 0x01#8, 0x00#8, 0xFF#8, 0x05#8, 0x00#8, 0xFF#8, 0x7F#8, 0x00#8, 0x80#8, 0x00#8, 0x00#8, 0x40#8,
    0xE2#8, 0x01#8, 0x00#8, 0xCF#8]

/-- The format B frame of V35 and V70, N_B = 8. -/
def frameB : List Byte := [0x55#8, 0x01#8, 0x02#8, 0x03#8, 0x04#8, 0x05#8, 0x8D#8, 0xBF#8]

/-- The format D frame of V37. -/
def frameD : List Byte := [0xA5#8, 0x01#8, 0x34#8, 0x12#8, 0xEC#8]

/-- Whether the outcome is a next state of which `p` holds. -/
def nextIs (o : Host.Outcome State Fault Refusal) (p : State → Bool) : Bool :=
  match o with
  | .next t => p t
  | .fault _ => false
  | .refused _ => false

/-- Whether a host read gives this value. -/
def reads (off : Offset) (v : Word) (s : State) : Bool :=
  nextIs (agentStep (.read .word off) s) fun t => t.busData == some v

/-! ### Well-formedness and decoding -/

theorem test_wellFormed_refuses_crcBuf_257 : WellFormed (.crcBuf 257#16) = false := by decide
theorem test_wellFormed_refuses_ck8Buf_257 : WellFormed (.ck8Buf 257#16) = false := by decide
theorem test_wellFormed_accepts_256 : WellFormed (.crcBuf 256#16) = true ∧ WellFormed (.ck8Buf 256#16) = true := by decide

theorem test_decode_nop : decode 0x00000000#32 = .ok .nop := by rfl
theorem test_decode_crcInit : decode 0x00000001#32 = .ok .crcInit := by rfl
theorem test_decode_crcByte : decode 0x0000FE02#32 = .ok (.crcByte 0xFE#8) := by rfl
theorem test_decode_crcBuf : decode 0x00010003#32 = .ok (.crcBuf 256#16) := by rfl
theorem test_decode_ck8Init : decode 0x00000004#32 = .ok .ck8Init := by rfl
theorem test_decode_ck8Byte : decode 0x00000205#32 = .ok (.ck8Byte 0x02#8) := by rfl
theorem test_decode_ck8Buf : decode 0x00000906#32 = .ok (.ck8Buf 9#16) := by rfl
theorem test_decode_frmSeal :
    decode 0x00000010#32 = .ok (.frmSeal .A) ∧ decode 0x00000110#32 = .ok (.frmSeal .B) ∧ decode 0x00000210#32 = .ok (.frmSeal .C) ∧
      decode 0x00000310#32 = .ok (.frmSeal .D) := ⟨rfl, rfl, rfl, rfl⟩
theorem test_decode_frmCheck : decode 0x00000311#32 = .ok (.frmCheck .D) ∧ decode 0x00000111#32 = .ok (.frmCheck .B) := ⟨rfl, rfl⟩
theorem test_decode_frmEncA : decode 0x00000012#32 = .ok .frmEncA := by rfl
theorem test_decode_frmEncD : decode 0x00000013#32 = .ok .frmEncD := by rfl
theorem test_decode_snapCommit : decode 0x00000014#32 = .ok .snapCommit := by rfl
theorem test_decode_syncFeed : decode 0x00005520#32 = .ok (.syncFeed 0x55#8) := by rfl
theorem test_decode_syncClr : decode 0x00000021#32 = .ok .syncClr := by rfl
theorem test_decode_linkStart : decode 0x00000030#32 = .ok .linkStart := by rfl
theorem test_decode_linkStop : decode 0x00000031#32 = .ok .linkStop := by rfl
theorem test_decode_linkSend : decode 0x00000032#32 = .ok .linkSend := by rfl
theorem test_decode_evqPop : decode 0x00000040#32 = .ok .evqPop := by rfl

/-- V24, V27, V32, V39c, V102 to V106: illegal words, by the check that refuses each. -/
theorem test_decode_illegal_words :
    decode 0x01000000#32 = .error .topByte ∧ decode 0x01000002#32 = .error .topByte ∧ decode 0x00000007#32 = .error .reservedOp ∧
      decode 0x000000FF#32 = .error .reservedOp ∧ decode 0x00000100#32 = .error .operand ∧ decode 0x00010002#32 = .error .operand ∧
      decode 0x00010103#32 = .error .operand ∧ decode 0x00000411#32 = .error .operand := ⟨rfl, rfl, rfl, rfl, rfl, rfl, rfl, rfl⟩

theorem test_decodeTableWord : decodeTableWord 32 0x3102 = some (.crcByte 0x31#8) ∧ decodeTableWord 32 0x7 = none := by decide

/-- A step from `State.withFetchWord` runs the word's command as the first step after reset. -/
theorem test_withFetchWord_runs :
    nextIs (step (State.reset.withFetchWord 32 0x3102)) (fun t => t.crc == 0xC782#16 && t.agenda == []) = true := by decide

/-! ### One step of each command -/

/-- V93. -/
theorem test_nop : nextIs (exec .nop { base with result := .busy }) (fun t => t == base) = true := by decide
/-- V105: NOP with IMM = 1 is ILLEGAL. -/
theorem test_nop_illegal : nextIs (performCommand 0x00000100#32 base) (fun t => t.result == .illegal) = true := by decide
/-- V22. -/
theorem test_crcInit : nextIs (exec .crcInit { base with crc := 0x1234#16 }) (fun t => t.crc == 0xFFFF#16) = true := by decide
/-- V23. -/
theorem test_crcByte : nextIs (exec (.crcByte 0x31#8) base) (fun t => t.crc == 0xC782#16) = true := by decide
/-- V15: crc16 of "1234" out of FRAMEBUF. -/
theorem test_crcBuf :
    nextIs (exec (.crcBuf 4#16) (withFb [0x31#8, 0x32#8, 0x33#8, 0x34#8, 0x35#8] base)) (fun t => t.crc == 0x5349#16) = true := by decide +kernel
/-- V26: no byte. -/
theorem test_crcBuf_none : nextIs (exec (.crcBuf 0#16) { base with crc := 0x5B2F#16 }) (fun t => t.crc == 0x5B2F#16) = true := by decide
/-- V28. -/
theorem test_ck8Init : nextIs (exec .ck8Init { base with ck8 := 0x77#8 }) (fun t => t.ck8 == 0x00#8) = true := by decide
/-- V29: the sum wraps. -/
theorem test_ck8Byte : nextIs (exec (.ck8Byte 0x02#8) { base with ck8 := 0xFF#8 }) (fun t => t.ck8 == 0x01#8) = true := by decide
/-- V15: checksum8 of "1234". -/
theorem test_ck8Buf :
    nextIs (exec (.ck8Buf 4#16) (withFb [0x31#8, 0x32#8, 0x33#8, 0x34#8, 0x35#8] base)) (fun t => t.ck8 == 0xCA#8) = true := by decide
/-- V35. -/
theorem test_frmSeal_B :
    nextIs (exec (.frmSeal .B) (withFb (frameB.take 6) base)) (fun t => t.fbBytes 9 == frameB ++ [0x00#8] && t.frameLen == 8#8)
      = true := by decide +kernel
/-- V37. -/
theorem test_frmSeal_D :
    nextIs (exec (.frmSeal .D) (withFb (frameD.take 4) base)) (fun t => t.fbBytes 6 == frameD ++ [0x00#8] && t.frameLen == 5#8)
      = true := by decide
/-- V39f: the header is not checked. -/
theorem test_frmCheck_header :
    nextIs (exec (.frmCheck .D) (withFb [0x00#8, 0x01#8, 0x34#8, 0x12#8, 0x47#8] { base with frameLen := 5#8 }))
      (fun t => t.result == .ok) = true := by decide
/-- V39b: the length before the trailer. -/
theorem test_frmCheck_order :
    nextIs (exec (.frmCheck .D) (withFb [0xA5#8, 0x01#8, 0x35#8, 0x12#8, 0xEC#8] { base with frameLen := 4#8 }))
      (fun t => t.result == .malformedFrame) = true := by decide
/-- V41. -/
theorem test_frmEncA :
    nextIs (exec .frmEncA { base with seq := 1#16 })
      (fun t => t.fbBytes 36 == [0xA5#8, 0x00#8, 0x01#8] ++ List.replicate 30 0x00#8 ++ [0x6B#8, 0xD8#8, 0x00#8]) = true := by decide +kernel
/-- V42. -/
theorem test_frmEncA_fields :
    nextIs
      (exec .frmEncA
        { base with
          seq := 1#16, subIdA := 1#8,
          active :=
            { mode := 2, t0 := 1000, t1 := 2000, t2 := 0, t3 := 0xFFFFFFFF#32, flags := 0b100101#6, manual := 1, burst := 3,
              ammo := 30, dOp := 0, dVal := 0 } })
      (fun t => t.fbBytes 35 ==
        [0xA5#8, 0x01#8, 0x01#8, 0x00#8, 0x02#8, 0xE8#8, 0x03#8, 0x00#8, 0x00#8, 0xD0#8, 0x07#8, 0x00#8, 0x00#8, 0x00#8, 0x00#8,
          0x00#8, 0x00#8, 0xFF#8, 0xFF#8, 0xFF#8, 0xFF#8, 0x01#8, 0x00#8, 0x01#8, 0x01#8, 0x03#8, 0x1E#8, 0x00#8, 0x00#8, 0x00#8,
          0x00#8, 0x00#8, 0x01#8, 0x95#8, 0xA4#8]) = true := by decide +kernel
/-- V44. -/
theorem test_frmEncD :
    nextIs (exec .frmEncD { base with active := { Snapshot.zero with dOp := 0x01#8, dVal := 0x1234#16 } })
      (fun t => t.fbBytes 6 == frameD ++ [0x00#8] && t.frameLen == 5#8) = true := by decide
/-- V48: a nonzero S_AMMO replaces the pending request. -/
theorem test_snapCommit_replaces :
    nextIs
      (exec .snapCommit
        { base with staging := { Snapshot.zero with ammo := 7#32 }, active := { Snapshot.zero with ammo := 30#32 } })
      (fun t => t.active.ammo == 7#32 && t.staging.ammo == 0#32) = true := by decide
/-- V47: S_AMMO = 0 leaves it. -/
theorem test_snapCommit_keeps :
    nextIs (exec .snapCommit { base with staging := { Snapshot.zero with mode := 3#8 }, active := { Snapshot.zero with ammo := 30#32 } })
      (fun t => t.active.ammo == 30#32 && t.active.mode == 3#8) = true := by decide
/-- V70: the last byte of a format B frame. -/
theorem test_syncFeed :
    nextIs (exec (.syncFeed 0xBF#8) { base with rxBuf := frameB.take 7 }) (fun t => t.evq == [.telemetry frameB] && t.rxBuf == [])
      = true := by decide +kernel
/-- V63: the candidate fails and its embedded header keeps 13 bytes. -/
theorem test_syncFeed_resync :
    nextIs (exec (.syncFeed 0xCF#8) { base with variant := .b, rxBuf := (frameC.set 7 0xA5#8).take 19 })
      (fun t => t.evq == [] && t.rxBuf == (frameC.set 7 0xA5#8).drop 7) = true := by decide
/-- V72. -/
theorem test_syncClr : nextIs (exec .syncClr { base with rxBuf := [0x00#8, 0x01#8, 0x02#8] }) (fun t => t == base) = true := by decide
/-- V74. -/
theorem test_syncClr_busy :
    nextIs (exec .syncClr { up with rxBuf := [0x00#8] }) (fun t => t.result == .busy && t.rxBuf == [0x00#8]) = true := by decide
/-- V82. -/
theorem test_linkStart :
    nextIs (exec .linkStart { base with now := 1000#64, ioErrCnt := 3#16 })
      (fun t => t.running && t.lastRx == 1000#64 && t.ioErrCnt == 0#16 && t.evq == [.connOpened] && t.link == .stale) = true := by
  decide
/-- V83. -/
theorem test_linkStart_fails :
    nextIs (exec .linkStart { base with openDraw := some .fail })
      (fun t => t.openFail && !t.running && t.evq == [] && t.result == .openFailure) = true := by decide
/-- V85. -/
theorem test_linkStop :
    nextIs (exec .linkStop { up with link := .synced, trx := [0x55#8], rxBuf := [0x55#8] })
      (fun t => !t.running && t.link == .stale && t.trx == [] && t.rxBuf == [0x55#8] && t.evq == [.connClosed]) = true := by decide
/-- V86. -/
theorem test_linkStop_stopped : nextIs (exec .linkStop base) (fun t => t.result == .notRunning && t.evq == []) = true := by decide
/-- V87. -/
theorem test_linkSend :
    nextIs (exec .linkSend (withFb frameD { up with frameLen := 5#8 })) (fun t => t.ttx == frameD && t.result == .ok) = true := by
  decide
/-- V88. -/
theorem test_linkSend_error :
    nextIs (exec .linkSend (withFb frameD { up with frameLen := 5#8, writeDraw := some (.err 2) }))
      (fun t => t.ttx == [0xA5#8, 0x01#8] && t.ioErrCnt == 1#16 && t.result == .ok) = true := by decide
/-- V91. -/
theorem test_evqPop :
    nextIs (exec .evqPop { base with evq := [.connOpened, .telemetry frameC] })
      (fun t => t.evq == [.telemetry frameC] && evqHeadWord t == 0x80001400#32) = true := by decide
/-- V92. -/
theorem test_evqPop_empty : nextIs (exec .evqPop base) (fun t => t.result == .empty) = true := by decide

/-! ### One step of the other agents -/

/-- A running link of V76 to V81: T_TX = 10, T_WD = 100, variant A. -/
def ticking (now lastTx lastRx : Time) : State :=
  { up with tTx := 10#32, tWd := 100#32, now := now, lastTx := lastTx, lastRx := lastRx }

/-- V76: 5 < 10, no frame; SYNCED. -/
theorem test_tick_quiet :
    nextIs (agentStep .tick (ticking 1005#64 1000#64 1000#64)) (fun t => t.link == .synced && t.ttx == [] && t.seq == 0#16) = true := by
  decide
/-- V77 and T8: 10 ≥ 10, the gate fires and SEQ wraps. -/
theorem test_tick_fires :
    nextIs (agentStep .tick { ticking 1010#64 1000#64 1000#64 with seq := 0xFFFF#16 })
      (fun t => t.link == .synced && t.seq == 0#16 && t.lastTx == 1010#64 && t.ttx.length == 35) = true := by decide
/-- V78: 100 is not > 100. -/
theorem test_tick_edge :
    nextIs (agentStep .tick (ticking 1100#64 1095#64 1000#64)) (fun t => t.link == .synced && t.evq == []) = true := by decide
/-- V79: stale. -/
theorem test_tick_stale :
    nextIs (agentStep .tick (ticking 1101#64 1100#64 1000#64)) (fun t => t.link == .stale && t.evq == [.linkTimeout]) = true := by decide
/-- V81: a valid frame restores SYNCED. -/
theorem test_tick_frame :
    nextIs (agentStep .tick { ticking 1103#64 1100#64 1000#64 with trx := frameB })
      (fun t => t.link == .synced && t.lastRx == 1103#64 && t.evq == [.telemetry frameB] && t.trx == []) = true := by decide +kernel
/-- V94 and V95: a failed read with a saturated counter. -/
theorem test_tick_read_error :
    nextIs (agentStep .tick { ticking 1005#64 1000#64 1000#64 with trx := frameB, readDraw := some .err, ioErrCnt := 0xFFFF#16 })
      (fun t => t.trx == frameB && t.rxBuf == [] && t.ioErrCnt == 0xFFFF#16) = true := by decide
/-- V96. -/
theorem test_now_latch :
    nextIs (agentStep (.read .word 0x024#12) { base with now := 0x100000005#64 })
      (fun t => t.busData == some 5#32 && reads 0x028#12 1#32 t) = true := by decide
/-- V97: a reserved VARIANT is not stored and RXBUF stays. -/
theorem test_ctrl_reserved :
    nextIs (agentStep (.write .word 0x000#12 2#32) { base with rxBuf := [0x55#8] })
      (fun t => t.variant == .a && t.rxBuf == [0x55#8]) = true := by decide
/-- V99: a change of VARIANT empties RXBUF. -/
theorem test_ctrl_variant :
    nextIs (agentStep (.write .word 0x000#12 1#32) { base with rxBuf := [0x55#8] }) (fun t => t.variant == .b && t.rxBuf == [])
      = true := by decide
/-- V101. -/
theorem test_seq_running : nextIs (agentStep (.write .word 0x018#12 5#32) up) (fun t => t.seq == 0#16) = true := by decide
/-- The IRQ vector of 60_exceptions R266. -/
theorem test_status_irq : reads 0x004#12 0x00000130#32 { base with irqEn := true, evq := [.connOpened] } = true := by decide
/-- V115, V117, V119, V120, V122. -/
theorem test_reset_reads :
    (reads 0x004#12 0#32 State.reset && reads 0x010#12 0x0000FFFF#32 State.reset && reads 0x01C#12 0x00001388#32 State.reset &&
      reads 0x020#12 0x000F4240#32 State.reset && reads 0x0FC#12 0#32 State.reset) = true := by decide

/-! ### Witnesses: the encoding -/

theorem witness_wellFormed : WellFormed (.ck8Buf 256#16) = true ∧ WellFormed (.syncFeed 0xFF#8) = true := by decide
theorem witness_decodes : decode 0x00010006#32 = .ok (.ck8Buf 256#16) ∧ decode 0x00000040#32 = .ok .evqPop := ⟨rfl, rfl⟩

/-- A state in which the host is about to write `w` to CMD. -/
def issuing (w : Word) : State := { base with agenda := [.write .word 0x008#12 w] }

theorem witness_issues_illegal_top : IssuesCommand (issuing 0x01000000#32) 0x01000000#32 [] ∧
    (0x01000000#32).extractLsb' 24 8 ≠ 0#8 := ⟨rfl, by decide⟩
theorem witness_issues_reserved : IssuesCommand (issuing 0x00000007#32) 0x00000007#32 [] ∧
    ReservedOp ((0x00000007#32).extractLsb' 0 8).toNat := ⟨rfl, by simp [ReservedOp]⟩
theorem witness_issues_operand : IssuesCommand (issuing 0x00000100#32) 0x00000100#32 [] ∧ ¬ LegalWord 0x00000100#32 :=
  ⟨rfl, by unfold LegalWord; decide⟩
theorem witness_reserved_edges : ReservedOp 0x0F ∧ ReservedOp 0x15 ∧ ReservedOp 0x1F ∧ ReservedOp 0x22 ∧ ReservedOp 0x2F ∧
    ReservedOp 0x33 ∧ ReservedOp 0x3F ∧ ReservedOp 0x41 ∧ ReservedOp 0xFF ∧ ¬ ReservedOp 0x06 ∧ ¬ ReservedOp 0x10 ∧
    ¬ ReservedOp 0x40 := by simp [ReservedOp]
theorem witness_issues_legal : IssuesCommand (issuing 0x00000030#32) 0x00000030#32 [] ∧ decode 0x00000030#32 = .ok .linkStart :=
  ⟨rfl, rfl⟩
theorem witness_reads_cmd : ∃ s : State, s.agenda = .read .word 0x008#12 :: [] :=
  ⟨{ base with agenda := [.read .word 0x008#12] }, rfl⟩

/-- The premises of `IllegalWhere` for a word, an OP and a bad IMM. -/
def illegalAt (w : Word) (op : Byte) (bad : Half → Bool) : Bool :=
  w.extractLsb' 24 8 == 0#8 && w.extractLsb' 0 8 == op && bad (w.extractLsb' 8 16)

theorem witness_illegal_Z :
    [(0x00000100#32, 0x00#8), (0x00000101#32, 0x01#8), (0x00000104#32, 0x04#8), (0x00000112#32, 0x12#8), (0x00000113#32, 0x13#8),
      (0x00000114#32, 0x14#8), (0x00000121#32, 0x21#8), (0x00000130#32, 0x30#8), (0x00000131#32, 0x31#8), (0x00000132#32, 0x32#8),
      (0x00000140#32, 0x40#8)].all (fun x => illegalAt x.1 x.2 fun imm => imm != 0#16) = true := by decide
theorem witness_illegal_B8 :
    [(0x00010002#32, 0x02#8), (0x00010005#32, 0x05#8), (0x00010020#32, 0x20#8)].all
      (fun x => illegalAt x.1 x.2 fun imm => imm.extractLsb' 8 8 != 0#8) = true := by decide
theorem witness_illegal_L :
    [(0x00010103#32, 0x03#8), (0x00010106#32, 0x06#8)].all (fun x => illegalAt x.1 x.2 fun imm => decide (256 < imm.toNat)) = true := by
  decide
theorem witness_illegal_F :
    [(0x00000410#32, 0x10#8), (0x00000411#32, 0x11#8)].all (fun x => illegalAt x.1 x.2 fun imm => imm.extractLsb' 2 14 != 0#14)
      = true := by decide

/-! ### Witnesses: checksums and codec -/

theorem witness_flip : 0 < [0x31#8].length ∧ 7 < 8 := by decide
theorem witness_flip_frame : validFrame {} .D frameD = true ∧ 4 < frameD.length := by decide
theorem witness_flip_frame_B : validFrame {} .B frameB = true ∧ 7 < frameB.length := by decide +kernel
theorem witness_flip_frame_C : validFrame {} .C frameC = true ∧ 19 < frameC.length := by decide +kernel
theorem witness_flip_frame_A :
    validFrame {} .A (0xA5#8 :: List.replicate 32 0x00#8 ++ [0x42#8, 0x56#8]) = true := by decide +kernel
theorem witness_length : (256#16).toNat ≤ 256 ∧ 256 < (257#16).toNat := by decide
theorem witness_seal_frame_D :
    (3 < sealIndex .D base ∨ sealIndex .D base + (sealBytes .D base).length ≤ 3) ∧
      (5 < sealIndex .D base ∨ sealIndex .D base + (sealBytes .D base).length ≤ 5) := by decide
theorem witness_check_length : ({ base with frameLen := 4#8 } : State).frameLen.toNat ≠ frameSize base.params .D := by decide
theorem witness_check_mismatch :
    ({ base with frameLen := 5#8 } : State).frameLen.toNat = frameSize base.params .D ∧
      validFrame base.params .D (fbList (withFb [0x01#8] { base with frameLen := 5#8 }) (frameSize base.params .D)) = false := by decide
theorem witness_check_ok :
    ({ base with frameLen := 5#8 } : State).frameLen.toNat = frameSize base.params .D ∧
      validFrame base.params .D (fbList (withFb frameD { base with frameLen := 5#8 }) (frameSize base.params .D)) = true := by decide
theorem witness_layouts : ∃ F G : List Byte, F = encA base 1#16 30#32 ∧ G = encD base := ⟨_, _, rfl, rfl⟩
theorem witness_check_formats : (Format.B = .A ∨ Format.B = .B) ∧ (Format.C = .C ∨ Format.C = .D) := by decide

/-! ### Witnesses: the synchronizer -/

theorem witness_feed_running : up.running = true := rfl
theorem witness_feed_waits : base.running = false ∧ synchronized base [0x55#8] = ([], [0x55#8]) := by decide
theorem witness_feed_emits :
    base.running = false ∧ synchronized { base with rxBuf := frameB.take 7 } [0xBF#8] = ([frameB], []) ∧
      base.evq.length < base.params.evqDepth := by decide +kernel
theorem witness_feed_drops :
    downFull.running = false ∧ synchronized { downFull with rxBuf := frameB.take 7 } [0xBF#8] = ([frameB], []) ∧
      downFull.params.evqDepth ≤ downFull.evq.length := by decide +kernel
theorem witness_feed_short : ({ base with rxBuf := frameB.take 7 } : State).rxBuf.length < rxSize base := by decide
theorem witness_feedByte :
    0 < 8 ∧ (frameB.take 7).length < 8 ∧ (feedByte 8 0x55#8 (validFrame {} .B) (frameB.take 7) 0xBF#8).1 ≠ [] := by decide +kernel
theorem witness_scan : 0 < 8 ∧ scanFrames 8 0x55#8 (validFrame {} .B) (0x55#8 :: frameB) = [frameB] := by decide +kernel
theorem witness_chunks :
    feedChunks 8 0x55#8 (validFrame {} .B) [] [frameB.take 3, frameB.drop 3 ++ frameB] = [frameB, frameB] := by decide +kernel

/-! ### Witnesses: the link and the tick -/

theorem witness_start_fails : ({ base with openDraw := some .fail } : State).running = false ∧
    openOutcome { base with openDraw := some .fail } = .fail := ⟨rfl, rfl⟩
theorem witness_start_opens : base.running = false ∧ openOutcome base = .ok ∧ base.evq.length < base.params.evqDepth :=
  ⟨rfl, rfl, by decide⟩
theorem witness_start_full : downFull.running = false ∧ openOutcome downFull = .ok ∧ downFull.params.evqDepth ≤ downFull.evq.length :=
  ⟨rfl, rfl, by decide⟩
theorem witness_stop : up.running = true ∧ up.evq.length < up.params.evqDepth := by decide
theorem witness_stop_full : upFull.running = true ∧ upFull.params.evqDepth ≤ upFull.evq.length := by decide
theorem witness_send_empty : up.running = true ∧ up.frameLen = 0#8 := by decide
theorem witness_send : ∃ s : State, s.running = true ∧ s.frameLen ≠ 0#8 ∧ writeOutcome s = .ok :=
  ⟨{ up with frameLen := 255#8 }, rfl, by decide, rfl⟩
theorem witness_send_error : ∃ s : State, s.running = true ∧ writeOutcome s = .err 0 ∧ 0 < s.frameLen.toNat :=
  ⟨{ up with frameLen := 1#8, writeDraw := some (.err 0) }, rfl, rfl, by decide⟩
theorem witness_send_error_last : ∃ s : State, s.running = true ∧ writeOutcome s = .err 254 ∧ 254 < s.frameLen.toNat :=
  ⟨{ up with frameLen := 255#8, writeDraw := some (.err 254) }, rfl, rfl, by decide⟩
theorem witness_pop : downFull.evq = .connOpened :: [] ∧ base.evq = [] := ⟨rfl, rfl⟩
theorem witness_enqueue : base.evq.length < base.params.evqDepth ∧ downFull.params.evqDepth ≤ downFull.evq.length := by decide

theorem witness_gate_fires : (ticking 1010#64 1000#64 1000#64).running = true ∧ GateFires (ticking 1010#64 1000#64 1000#64) ∧
    writeOutcome (ticking 1010#64 1000#64 1000#64) = .ok := ⟨rfl, by unfold GateFires; decide, rfl⟩
theorem witness_gate_fires_error : ∃ s : State, s.running = true ∧ GateFires s ∧ writeOutcome s = .err 34 :=
  ⟨{ ticking 1010#64 1000#64 1000#64 with writeDraw := some (.err 34) }, rfl, by unfold GateFires; decide, rfl⟩
/-- A firing whose write fails, in ticks whose read does not fail: nothing in TRX, and a successful read. -/
theorem witness_gate_error_counted : ∃ s u : State, (s.running = true ∧ s.trx = [] ∧ GateFires s ∧ writeOutcome s = .err 0) ∧
    u.running = true ∧ bytesRead u ≠ none ∧ GateFires u ∧ writeOutcome u = .err 0 :=
  ⟨{ ticking 1010#64 1000#64 1000#64 with writeDraw := some (.err 0) },
    { ticking 1010#64 1000#64 1000#64 with writeDraw := some (.err 0), trx := frameB },
    ⟨rfl, rfl, by unfold GateFires; decide, rfl⟩, rfl, by decide, by unfold GateFires; decide, rfl⟩
theorem witness_gate_no_error : ∃ s : State, s.running = true ∧ bytesRead s ≠ none ∧ GateFires s ∧ writeOutcome s = .ok :=
  ⟨{ ticking 1010#64 1000#64 1000#64 with trx := frameB }, rfl, by decide, by unfold GateFires; decide, rfl⟩
theorem witness_gate_waits : (ticking 1009#64 1000#64 1000#64).running = true ∧ ¬ GateFires (ticking 1009#64 1000#64 1000#64) :=
  ⟨rfl, by unfold GateFires; decide⟩
theorem witness_gate_variant_b : ¬ GateFires { ticking 1010#64 1000#64 1000#64 with variant := .b } := by unfold GateFires; decide

/-- A link about to receive `bs`. -/
def receiving (bs : List Byte) : State := { ticking 1005#64 1000#64 1000#64 with trx := bs }

theorem witness_receive_none : (receiving [0x55#8]).running = true ∧ (receiving [0x55#8]).trx ≠ [] ∧
    bytesRead (receiving [0x55#8]) = some [0x55#8] ∧ (synchronized (receiving [0x55#8]) [0x55#8]).1 = [] := by decide
theorem witness_receive_frame : bytesRead (receiving frameB) = some frameB ∧ (synchronized (receiving frameB) frameB).1 ≠ [] ∧
    (receiving frameB).evq.length + (synchronized (receiving frameB) frameB).1.length ≤ (receiving frameB).params.evqDepth := by
  decide +kernel
theorem witness_receive_empty : (ticking 1100#64 1095#64 1000#64).running = true ∧ (ticking 1100#64 1095#64 1000#64).trx = [] ∧
    (ticking 1100#64 1095#64 1000#64).now - (ticking 1100#64 1095#64 1000#64).lastRx
      ≤ (ticking 1100#64 1095#64 1000#64).tWd.setWidth 64 := by decide

/-- Two frames arrive at an empty queue with this many places. -/
def twoFrames (places : Fin 255) : State := { receiving (frameB ++ frameB) with params := { depthIndex := places - 1 } }

/-- Both frames fit, to the last place. -/
theorem witness_receive_fits : (twoFrames 2).trx ≠ [] ∧ bytesRead (twoFrames 2) = some (frameB ++ frameB) ∧
    (synchronized (twoFrames 2) (frameB ++ frameB)).1 = [frameB, frameB] ∧
    (twoFrames 2).evq.length + 2 = (twoFrames 2).params.evqDepth := by decide +kernel
/-- One place: the second frame is dropped. -/
theorem witness_receive_drops : (twoFrames 1).trx ≠ [] ∧ bytesRead (twoFrames 1) = some (frameB ++ frameB) ∧
    (synchronized (twoFrames 1) (frameB ++ frameB)).1 = [frameB, frameB] ∧
    (twoFrames 1).params.evqDepth < (twoFrames 1).evq.length + 2 := by decide +kernel
/-- R217 and R240: the first frame that fits is enqueued, the other dropped with EVQ_OVF. -/
theorem test_tick_drops :
    nextIs (agentStep .tick (twoFrames 1)) (fun t => t.evq == [.telemetry frameB] && t.evqOvf && t.lastRx == 1005#64 && t.trx == [])
      = true := by decide +kernel
theorem witness_failed_read : ∃ s : State, s.running = true ∧ s.trx ≠ [] ∧ bytesRead s = none ∧ ¬ GateFires s ∧
    s.now - s.lastRx ≤ s.tWd.setWidth 64 :=
  ⟨{ receiving frameB with readDraw := some .err }, rfl, by decide, by decide, by unfold GateFires; decide, by decide⟩
theorem witness_failed_read_stale : ∃ s : State, s.running = true ∧ s.trx ≠ [] ∧ bytesRead s = none ∧ writeOutcome s = .ok ∧
    s.tWd.setWidth 64 < s.now - s.lastRx :=
  ⟨{ ticking 1101#64 1000#64 1000#64 with trx := frameB, readDraw := some .err }, rfl, by decide, by decide, rfl, by decide⟩
/-- Both the gate's write and the read fail, at a count of 0xFFFE: it saturates at 0xFFFF (R218, R252, R45). -/
theorem witness_both_fail : ∃ s : State, s.running = true ∧ s.trx ≠ [] ∧ bytesRead s = none ∧ GateFires s ∧ writeOutcome s = .err 0 ∧
    s.ioErrCnt = 0xFFFE#16 ∧ satInc16 (satInc16 s.ioErrCnt) = 0xFFFF#16 ∧
    nextIs (agentStep .tick s) (fun t => t.ioErrCnt == 0xFFFF#16) = true :=
  ⟨{ ticking 1010#64 1000#64 1000#64 with
      trx := frameB, readDraw := some .err, writeDraw := some (.err 0), ioErrCnt := 0xFFFE#16 },
    rfl, by decide, by decide, by unfold GateFires; decide, rfl, rfl, by decide, by decide +kernel⟩
theorem witness_watchdog_stale :
    nextIs (agentStep .tick (ticking 1101#64 1100#64 1000#64))
      (fun t => decide ((100#32).setWidth 64 < 1101#64 - t.lastRx)) = true ∧
      (ticking 1101#64 1100#64 1000#64).evq.length < (ticking 1101#64 1100#64 1000#64).params.evqDepth := by decide
theorem witness_watchdog_stale_full : ∃ s : State, s.running = true ∧ s.params.evqDepth ≤ s.evq.length ∧
    s.tWd.setWidth 64 < s.now - s.lastRx ∧ s.trx = [] :=
  ⟨{ upFull with tWd := 100#32, now := 101#64 }, rfl, by decide, by decide, rfl⟩
theorem witness_watchdog_synced :
    nextIs (agentStep .tick (ticking 1100#64 1095#64 1000#64))
      (fun t => decide (1100#64 - t.lastRx ≤ (100#32).setWidth 64)) = true := by decide
theorem witness_frame_enqueued : (receiving frameB).running = true ∧
    nextIs (agentStep .tick (receiving frameB)) (fun t => (newEvents (receiving frameB) t).contains (.telemetry frameB)) = true := by
  decide +kernel
theorem witness_tick_next : ∃ t, agentStep .tick (ticking 1005#64 1000#64 1000#64) = .next t := ⟨_, rfl⟩

/-- A running link of variant B with T_WD = 100. -/
def quiet : State := { up with variant := .b, tWd := 100#32 }

/-- A fair run for TICK_MAX = 50. -/
def quietRun : List AgentStep := [.time 50#64, .tick, .time 100#64, .tick, .time 150#64, .tick, .time 151#64]

theorem witness_fair_run : (∀ a ∈ quietRun, a = .tick ∨ ∃ n, a = .time n) ∧ quiet.running = true ∧ quiet.trx = [] ∧
    quiet.lastRx ≤ quiet.now ∧ 0 ≤ quiet.now.toNat ∧ quiet.now.toNat ≤ 0 + 50 ∧
    (quiet.lastRx.toNat + quiet.tWd.toNat < 0 → quiet.link = .stale) :=
  ⟨by simp [quietRun], rfl, rfl, by decide, by decide, by decide, by decide⟩
theorem witness_fair_run_end : tickFair 50 quietRun 0 quiet = true ∧
    nextIs (runProgram quietRun quiet)
      (fun t => decide (quiet.lastRx.toNat + quiet.tWd.toNat + 50 < t.now.toNat) && t.link == .stale) = true := by decide +kernel

/-! ### Witnesses: the register window and the whole machine -/

theorem witness_ctrl_values : (2#32).extractLsb' 0 2 = 2#2 ∧ (7#32).extractLsb' 0 2 = 3#2 ∧ (4#32).extractLsb' 0 2 = 0#2 ∧
    (1#32).extractLsb' 0 2 = 1#2 ∧ base.running = false ∧ up.running = true := by decide
theorem witness_ctrl_changes :
    nextIs (agentStep (.write .word 0x000#12 1#32) base) (fun t => decide (t.variant ≠ base.variant)) = true ∧
      nextIs (agentStep (.write .word 0x000#12 3#32) base) (fun t => decide (t.variant = base.variant)) = true := by decide

/-- A state that meets the invariant with every list in use. -/
theorem witness_inv : Inv
    { ticking 1103#64 1100#64 1000#64 with
      rxBuf := frameB.take 7, evq := [.telemetry frameB, .linkTimeout], trx := [0x55#8], frameBuf := [(0, 0xA5#8), (255, 0x01#8)] } where
  frameBuf := by decide
  rxBuf := by decide
  evqBound := by decide
  evqEvents := by
    intro e he
    simp only [List.mem_cons, List.not_mem_nil, or_false] at he
    rcases he with rfl | rfl
    · exact .inl ⟨by decide +kernel, by decide⟩
    · trivial
  stoppedLink := by decide
  stoppedTrx := by decide
  lastTx := by decide
  lastRx := by decide

/-- A stopped state that meets the invariant, about to start its link; its step answers a next state. -/
theorem witness_inv_step : Inv (issuing 0x00000030#32) ∧ ∃ t, step (issuing 0x00000030#32) = .next t :=
  ⟨{ frameBuf := by decide, rxBuf := by decide, evqBound := by decide, evqEvents := by intro e he; simp [issuing, base, State.reset] at he,
     stoppedLink := by decide, stoppedTrx := by decide, lastTx := by decide, lastRx := by decide }, _, rfl⟩
theorem witness_now : ∃ t u : State, agentStep (.read .word 0x024#12) base = .next t ∧ u.nowHiLatch = t.nowHiLatch := ⟨_, _, rfl, rfl⟩
theorem witness_snap_fields : SnapField.dVal ≠ .mode ∧ stagingOffset .dVal = 0x068 := by decide
theorem witness_fb_word : 63 < 64 ∧ (251 < 4 * 63 ∨ 4 * 63 + 4 ≤ 251) ∧ (256 < 4 * 63 ∨ 4 * 63 + 4 ≤ 256) := by decide
theorem witness_event_window : base.evq = [] ∧ downFull.evq = .connOpened :: [] ∧ (63 : Nat) < 64 ∧ (3 : Nat) < 4 :=
  ⟨rfl, rfl, by decide, by decide⟩
theorem witness_event_inv : Inv downFull ∧ downFull.evq = .connOpened :: [] :=
  ⟨{ frameBuf := by decide, rxBuf := by decide, evqBound := by decide,
     evqEvents := by intro e he; simp [downFull, base] at he; subst he; trivial,
     stoppedLink := by decide, stoppedTrx := by decide, lastTx := by decide, lastRx := by decide }, rfl⟩
theorem witness_unmapped : UnmappedOffset (0x03C#12).toNat ∧ UnmappedOffset (0x06C#12).toNat ∧ UnmappedOffset (0x07C#12).toNat ∧
    UnmappedOffset (0x0AC#12).toNat ∧ UnmappedOffset (0x0FC#12).toNat ∧ UnmappedOffset (0x300#12).toNat ∧
    UnmappedOffset (0xFFC#12).toNat := by simp [UnmappedOffset]
theorem witness_readOnly : ReadOnlyOffset (0x00C#12).toNat ∧ ReadOnlyOffset (0x024#12).toNat ∧ ReadOnlyOffset (0x028#12).toNat ∧
    ReadOnlyOffset (0x030#12).toNat ∧ ReadOnlyOffset (0x034#12).toNat ∧ ReadOnlyOffset (0x080#12).toNat ∧
    ReadOnlyOffset (0x0A8#12).toNat ∧ ReadOnlyOffset (0x200#12).toNat ∧ ReadOnlyOffset (0x2FC#12).toNat := by
  simp [ReadOnlyOffset]
theorem witness_badAccess : BadAccess .byte 0x000#12 ∧ BadAccess .double 0x100#12 ∧ BadAccess .word 0x001#12 ∧
    ¬ BadAccess .word 0xFFC#12 := by unfold BadAccess; decide
theorem witness_aligned : (0x024#12).toNat % 4 = 0 ∧ (0x200#12).toNat % 4 = 0 ∧ (0x200#12) ≠ 0x024#12 := by decide
theorem witness_time : base.now ≤ 0#64 ∧ 0#64 < ({ base with now := 1#64 } : State).now := by decide
theorem witness_rx : up.running = true ∧ base.running = false := by decide

theorem witness_changes_result_crc_ck8 :
    nextIs (agentStep (.write .word 0x008#12 0x00000040#32) base) (fun t => t.result != base.result) = true ∧
      nextIs (agentStep (.write .word 0x008#12 0x00003102#32) base) (fun t => t.crc != base.crc) = true ∧
      nextIs (agentStep (.write .word 0x014#12 5#32) base) (fun t => t.ck8 != base.ck8) = true := by decide
theorem witness_changes_ioErrCnt :
    nextIs (agentStep (.write .word 0x008#12 0x00000030#32) { base with ioErrCnt := 7#16 }) (fun t => t.ioErrCnt == 0#16) = true ∧
      nextIs (agentStep (.write .word 0x008#12 0x00000032#32) { up with frameLen := 1#8, writeDraw := some (.err 0) })
        (fun t => t.ioErrCnt == 1#16) = true ∧
      nextIs
        (agentStep .tick
          { ticking 1010#64 1000#64 1000#64 with trx := frameB, readDraw := some .err, writeDraw := some (.err 0) })
        (fun t => t.ioErrCnt == 2#16) = true := by decide +kernel
theorem witness_raises : nextIs (exec .evqPop base) (fun t => t.result != .ok) = true ∧
    nextIs (exec .linkStart { base with openDraw := some .fail }) (fun t => t.result == .openFailure) = true := by decide
theorem witness_changes_seq_now :
    nextIs (agentStep (.write .word 0x018#12 5#32) base) (fun t => t.seq != base.seq) = true ∧
      nextIs (agentStep (.time 1#64) base) (fun t => t.now != base.now) = true := by decide
theorem witness_changes_link_running_active :
    nextIs (agentStep .tick up) (fun t => t.link != up.link) = true ∧
      nextIs (agentStep (.write .word 0x008#12 0x00000030#32) base) (fun t => t.running != base.running) = true ∧
      nextIs (agentStep (.write .word 0x008#12 0x00000014#32) { base with staging := { Snapshot.zero with mode := 1#8 } })
        (fun t => t.active != base.active) = true := by decide
theorem witness_queue_grows : ∃ t, agentStep (.write .word 0x008#12 0x00000030#32) base = .next t := ⟨_, rfl⟩

end Sys2Proof.Tests
end

section
/-! PROOFS. The tick neither reads nor changes the host's scratch registers: each of its phases commutes with writing them
(10_state R37, R38, R50, R53, 70_reset_and_hazards R308, R309). -/

namespace Sys2Proof.Machine

open Sys2Proof.Claims

section Scratch

variable (m : Memory) (len : Byte) (c : Half) (k : Byte) (g : Snapshot) (r : ResultCode)

theorem enqueue_withScratch (ev : Event) (s : State) :
    enqueue ev (withScratch m len c k g r s) = withScratch m len c k g r (enqueue ev s) := by
  unfold enqueue
  rw [apply_ite (withScratch m len c k g r)]
  rfl

theorem transportWrite_withScratch (F : List Byte) (s : State) :
    transportWrite F (withScratch m len c k g r s) = withScratch m len c k g r (transportWrite F s) := by
  have same : writeOutcome (withScratch m len c k g r s) = writeOutcome s := rfl
  unfold transportWrite
  rw [same]
  cases writeOutcome s <;> rfl

theorem transportRead_withScratch (s : State) :
    transportRead (withScratch m len c k g r s) =
      ((transportRead s).1, withScratch m len c k g r (transportRead s).2) := by
  have same : readOutcome (withScratch m len c k g r s) = readOutcome s := rfl
  unfold transportRead
  rw [same]
  cases readOutcome s <;> rfl

/-- The gate's condition and its frame are functions of VARIANT, the timers, SUBID_A, SEQ and the active snapshot. -/
theorem transmitGate_withScratch (t : Time) (s : State) :
    transmitGate t (withScratch m len c k g r s) = withScratch m len c k g r (transmitGate t s) := by
  have same : gateFires t (withScratch m len c k g r s) = gateFires t s := rfl
  unfold transmitGate
  rw [same]
  cases gateFires t s
  · rfl
  · have write := transportWrite_withScratch m len c k g r (encA s (s.seq + 1#16) s.active.ammo)
      { s with seq := s.seq + 1#16, active := { s.active with ammo := 0#32 } }
    exact congrArg (fun u : State => { u with lastTx := t }) write

theorem feedAll_emitTick_withScratch (t : Time) (bs : List Byte) (s : State) :
    feedAll (emitTick t) bs (withScratch m len c k g r s) =
      withScratch m len c k g r (feedAll (emitTick t) bs s) := by
  rw [feedAll_emitTick, feedAll_emitTick]
  rfl

theorem receive_withScratch (t : Time) (s : State) :
    receive t (withScratch m len c k g r s) = withScratch m len c k g r (receive t s) := by
  have same : (withScratch m len c k g r s).trx = s.trx := rfl
  unfold receive
  rw [same, transportRead_withScratch]
  cases s.trx with
  | nil => rfl
  | cons b rest =>
    obtain ⟨_ | bs, u⟩ := transportRead s
    · rfl
    · exact feedAll_emitTick_withScratch m len c k g r t bs u

theorem watchdog_withScratch (t : Time) (s : State) :
    watchdog t (withScratch m len c k g r s) = withScratch m len c k g r (watchdog t s) := by
  have same : watchdogExpired t (withScratch m len c k g r s) = watchdogExpired t s := rfl
  unfold watchdog
  rw [same]
  cases watchdogExpired t s
  · rfl
  · exact enqueue_withScratch m len c k g r _ { s with link := .stale }

theorem tick_withScratch (s : State) :
    tick (withScratch m len c k g r s) = withScratch m len c k g r (tick s) := by
  have running : (withScratch m len c k g r s).running = s.running := rfl
  have now : (withScratch m len c k g r s).now = s.now := rfl
  unfold tick
  rw [running, now, transmitGate_withScratch, receive_withScratch, watchdog_withScratch]
  cases s.running <;> rfl

end Scratch

end Sys2Proof.Machine

namespace Sys2Proof.Proofs

open Sys2Proof.Machine Sys2Proof.Claims

/-- Settles O42: the tick commutes with writing the host's scratch registers. -/
theorem tickIgnoresHostScratch : Obligations.TickIgnoresHostScratch := by
  intro s t m len c k g r h
  obtain rfl : tick s = t := Host.Outcome.next.inj h
  exact congrArg Host.Outcome.next (tick_withScratch m len c k g r s)

end Sys2Proof.Proofs
end

section
/-! PROOFS. The register window: the offset map and its inverse, and an aligned host access as a read or a write of a register
(10_state R63, 20_memory R81 to R85). -/

namespace Sys2Proof.Machine

/-! ### Aligned accesses -/

theorem extractLsb'_low_two_eq_zero_iff (off : Offset) : off.extractLsb' 0 2 = 0#2 ↔ off.toNat % 4 = 0 := by
  rw [← BitVec.toNat_inj]
  simp [BitVec.extractLsb'_toNat]

/-- An access passes the window exactly if it is an aligned 32-bit access (20_memory R81). -/
theorem accessFault_eq_none_iff {width : AccessWidth} {off : Offset} :
    accessFault width off = none ↔ width = .word ∧ off.toNat % 4 = 0 := by
  rw [← extractLsb'_low_two_eq_zero_iff]
  unfold accessFault
  by_cases hw : width = .word <;> by_cases ho : off.extractLsb' 0 2 = 0#2 <;> simp [hw, ho]

theorem agentStep_read_aligned {off : Offset} (h : off.toNat % 4 = 0) (s : State) :
    agentStep (.read .word off) s = .next (hostRead (registerAt off) s) := by
  simp only [agentStep, accessFault_eq_none_iff.mpr ⟨rfl, h⟩, complete]

theorem agentStep_write_aligned {off : Offset} (h : off.toNat % 4 = 0) (v : Word) (s : State) :
    agentStep (.write .word off v) s = hostWrite (registerAt off) v s := by
  simp only [agentStep, accessFault_eq_none_iff.mpr ⟨rfl, h⟩]

/-- A read that answers is aligned and reads the word's register. -/
theorem agentStep_read_eq_next {width : AccessWidth} {off : Offset} {s t : State}
    (h : agentStep (.read width off) s = .next t) :
    width = .word ∧ off.toNat % 4 = 0 ∧ hostRead (registerAt off) s = t := by
  cases hf : accessFault width off with
  | some f => simp [agentStep, hf] at h
  | none =>
    obtain ⟨rfl, ha⟩ := accessFault_eq_none_iff.mp hf
    rw [agentStep_read_aligned ha] at h
    exact ⟨rfl, ha, Host.Outcome.next.inj h⟩

/-- A write that answers is aligned and writes the word's register. -/
theorem agentStep_write_eq_next {width : AccessWidth} {off : Offset} {v : Word} {s t : State}
    (h : agentStep (.write width off v) s = .next t) :
    width = .word ∧ off.toNat % 4 = 0 ∧ hostWrite (registerAt off) v s = .next t := by
  cases hf : accessFault width off with
  | some f => simp [agentStep, hf] at h
  | none =>
    obtain ⟨rfl, ha⟩ := accessFault_eq_none_iff.mp hf
    exact ⟨rfl, ha, (agentStep_write_aligned ha v s).symm.trans h⟩

/-! ### The register map -/

theorem snapFieldAt_snapFieldOffset (f : SnapField) : snapFieldAt (snapFieldOffset f) = some f := by
  cases f <;> rfl

theorem snapFieldOffset_le (f : SnapField) : snapFieldOffset f ≤ 0x28 := by
  cases f <;> decide

theorem snapFieldOffset_aligned (f : SnapField) : snapFieldOffset f % 4 = 0 := by
  cases f <;> rfl

theorem eq_snapFieldOffset_of_snapFieldAt {o : Nat} {f : SnapField} (h : snapFieldAt o = some f) :
    o = snapFieldOffset f := by
  unfold snapFieldAt at h
  split at h <;> cases h <;> rfl

/-- A word of a snapshot block that is mapped is a field's. -/
theorem exists_snapField_of_getD_ne_unmapped {mk : SnapField → Register} {o : Nat} {r : Register}
    (h : ((snapFieldAt o).map mk).getD .unmapped = r) (hr : r ≠ .unmapped) : ∃ f, r = mk f ∧ o = snapFieldOffset f := by
  cases hf : snapFieldAt o with
  | none => exact absurd (by simpa [hf] using h.symm) hr
  | some f => exact ⟨f, by simpa [hf] using h.symm, eq_snapFieldOffset_of_snapFieldAt hf⟩

/-- A register that the map names: the two arrays have 64 words each. -/
def Register.InWindow : Register → Prop
  | .frameBuf k => k < 64
  | .evData k => k < 64
  | _ => True

theorem toNat_registerOffset_staging (f : SnapField) : (registerOffset (.staging f)).toNat = 0x40 + snapFieldOffset f := by
  cases f <;> rfl

theorem toNat_registerOffset_active (f : SnapField) : (registerOffset (.active f)).toNat = 0x80 + snapFieldOffset f := by
  cases f <;> rfl

theorem toNat_registerOffset_frameBuf {k : Nat} (h : k < 64) : (registerOffset (.frameBuf k)).toNat = 0x100 + 4 * k := by
  simp only [registerOffset, BitVec.toNat_ofNat]
  omega

theorem toNat_registerOffset_evData {k : Nat} (h : k < 64) : (registerOffset (.evData k)).toNat = 0x200 + 4 * k := by
  simp only [registerOffset, BitVec.toNat_ofNat]
  omega

/-- The map finds each register at the register's own offset. -/
theorem registerAt_registerOffset {r : Register} (h : r.InWindow) : registerAt (registerOffset r) = r := by
  cases r with
  | frameBuf k =>
    have hk : k < 64 := h
    unfold registerAt
    simp only [toNat_registerOffset_frameBuf hk]
    rw [if_neg (by omega), if_pos (by omega), Nat.add_sub_cancel_left, Nat.mul_div_cancel_left k (by omega)]
  | evData k =>
    have hk : k < 64 := h
    unfold registerAt
    simp only [toNat_registerOffset_evData hk]
    rw [if_pos (by omega), Nat.add_sub_cancel_left, Nat.mul_div_cancel_left k (by omega)]
  | staging f =>
    have hf := snapFieldOffset_le f
    unfold registerAt
    simp only [toNat_registerOffset_staging]
    rw [if_neg (by omega), if_neg (by omega), if_neg (by omega), if_pos (by omega), Nat.add_sub_cancel_left,
      snapFieldAt_snapFieldOffset]
    rfl
  | active f =>
    have hf := snapFieldOffset_le f
    unfold registerAt
    simp only [toNat_registerOffset_active]
    rw [if_neg (by omega), if_neg (by omega), if_pos (by omega), Nat.add_sub_cancel_left, snapFieldAt_snapFieldOffset]
    rfl
  | _ => rfl

theorem registerOffset_aligned {r : Register} (h : r.InWindow) : (registerOffset r).toNat % 4 = 0 := by
  cases r with
  | frameBuf k => rw [toNat_registerOffset_frameBuf h]; omega
  | evData k => rw [toNat_registerOffset_evData h]; omega
  | staging f => have := snapFieldOffset_aligned f; rw [toNat_registerOffset_staging]; omega
  | active f => have := snapFieldOffset_aligned f; rw [toNat_registerOffset_active]; omega
  | _ => rfl

/-- A mapped word stands at its register's own offset. -/
theorem eq_registerOffset_of_registerAt {off : Offset} {r : Register} (ha : off.toNat % 4 = 0) (h : registerAt off = r)
    (hr : r ≠ .unmapped) : off = registerOffset r := by
  apply BitVec.eq_of_toNat_eq
  unfold registerAt at h
  simp only at h
  split at h
  · subst h
    rw [toNat_registerOffset_evData] <;> omega
  · split at h
    · subst h
      rw [toNat_registerOffset_frameBuf] <;> omega
    · split at h
      · obtain ⟨f, rfl, hf⟩ := exists_snapField_of_getD_ne_unmapped h hr
        rw [toNat_registerOffset_active]
        omega
      · split at h
        · obtain ⟨f, rfl, hf⟩ := exists_snapField_of_getD_ne_unmapped h hr
          rw [toNat_registerOffset_staging]
          omega
        · split at h <;> subst h
          case h_16 => exact absurd rfl hr
          all_goals exact ‹off.toNat = _›

/-! ### Host accesses of a register -/

theorem agentStep_rd {r : Register} (h : r.InWindow) (s : State) : agentStep (rd r) s = .next (hostRead r s) := by
  rw [rd, agentStep_read_aligned (registerOffset_aligned h), registerAt_registerOffset h]

theorem agentStep_wr {r : Register} (h : r.InWindow) (v : Word) (s : State) :
    agentStep (wr r v) s = hostWrite r v s := by
  rw [wr, agentStep_write_aligned (registerOffset_aligned h), registerAt_registerOffset h]

/-- Every read but that of NOW_LO only hands its value to the host (20_memory R84). -/
theorem hostRead_of_ne_nowLo {r : Register} (h : r ≠ .nowLo) (s : State) :
    hostRead r s = { s with busData := some (readValue r s) } := by
  cases r with
  | nowLo => exact absurd rfl h
  | _ => rfl

theorem writeRegister_seq_of_running {s : State} (h : s.running = true) (v : Word) : writeRegister .seq v s = s :=
  if_pos h

theorem writeRegister_seq_of_stopped {s : State} (h : s.running = false) (v : Word) :
    writeRegister .seq v s = { s with seq := v.setWidth 16 } :=
  if_neg (by simp [h])

end Sys2Proof.Machine
end

section
/-! PROOFS. The decoder inverted: a word that decodes is the word of the command it decodes to (30_encoding R100 to R105). -/

namespace Sys2Proof

theorem formZ_eq_ok {imm : Half} {i j : Instr} (h : formZ imm i = .ok j) : j = i ∧ imm = 0#16 := by
  unfold formZ at h
  split at h
  · exact ⟨(Except.ok.inj h).symm, ‹_›⟩
  · cases h

theorem zero_append_eq_setWidth {v w : Nat} (x : BitVec w) : 0#v ++ x = x.setWidth (v + w) := by
  apply BitVec.eq_of_toNat_eq
  rw [BitVec.toNat_setWidth_of_le (Nat.le_add_left w v)]
  simp

/-- A value whose high bits are 0 is its low part, zero-extended. -/
theorem eq_setWidth_of_high_eq_zero {v w : Nat} {x : BitVec (v + w)} (h : x.extractLsb' w v = 0#v) :
    x = (x.extractLsb' 0 w).setWidth (v + w) :=
  calc
    x = x.extractLsb' w v ++ x.extractLsb' 0 w := BitVec.extractLsb'_append_extractLsb'.symm
    _ = 0#v ++ x.extractLsb' 0 w := by rw [h]
    _ = (x.extractLsb' 0 w).setWidth (v + w) := zero_append_eq_setWidth _

theorem formB8_eq_ok {imm : Half} {mk : Byte → Instr} {j : Instr} (h : formB8 imm mk = .ok j) :
    ∃ b, j = mk b ∧ imm = b.setWidth 16 := by
  unfold formB8 at h
  split at h
  · rename_i high
    exact ⟨_, (Except.ok.inj h).symm, eq_setWidth_of_high_eq_zero (v := 8) high⟩
  · cases h

theorem formL_eq_ok {imm : Half} {mk : Half → Instr} {j : Instr} (h : formL imm mk = .ok j) : j = mk imm := by
  unfold formL at h
  split at h
  · exact (Except.ok.inj h).symm
  · cases h

theorem formatNumber_formatOf (n : BitVec 2) : formatNumber (formatOf n) = n.setWidth 16 := by
  revert n
  decide

theorem formF_eq_ok {imm : Half} {mk : Format → Instr} {j : Instr} (h : formF imm mk = .ok j) :
    ∃ f, j = mk f ∧ imm = formatNumber f := by
  unfold formF at h
  split at h
  · rename_i high
    refine ⟨_, (Except.ok.inj h).symm, ?_⟩
    rw [formatNumber_formatOf]
    exact eq_setWidth_of_high_eq_zero (v := 14) high
  · cases h

/-- What the opcode map gives is the command of that OP and that IMM (30_encoding R102, R103). -/
theorem fields_of_decodeOp {op : Nat} {imm : Half} {i : Instr} (h : decodeOp op imm = .ok i) :
    (opcode i).toNat = op ∧ immediate i = imm := by
  unfold decodeOp at h
  split at h
  case h_3 | h_6 | h_13 => obtain ⟨b, rfl, rfl⟩ := formB8_eq_ok h; exact ⟨rfl, rfl⟩
  case h_4 | h_7 => obtain rfl := formL_eq_ok h; exact ⟨rfl, rfl⟩
  case h_8 | h_9 => obtain ⟨f, rfl, rfl⟩ := formF_eq_ok h; exact ⟨rfl, rfl⟩
  case h_19 => cases h
  all_goals obtain ⟨rfl, rfl⟩ := formZ_eq_ok h; exact ⟨rfl, rfl⟩

theorem fields_of_decode {w : Word} {i : Instr} (h : decode w = .ok i) :
    topField w = 0#8 ∧ opField w = opcode i ∧ immField w = immediate i := by
  unfold decode at h
  split at h
  · obtain ⟨hop, himm⟩ := fields_of_decodeOp h
    exact ⟨‹_›, (BitVec.eq_of_toNat_eq hop).symm, himm.symm⟩
  · cases h

/-- A word is made of its three fields (30_encoding R100). -/
theorem eq_of_fields_eq {w w' : Word} (ht : topField w = topField w') (ho : opField w = opField w')
    (hi : immField w = immField w') : w = w' := by
  have split : ∀ u : Word, topField u ++ immField u ++ opField u = u := by
    intro u
    have high : topField u ++ immField u = u.extractLsb' 8 24 :=
      BitVec.extractLsb'_append_extractLsb'_eq_extractLsb' (start₂ := 24) rfl
    rw [high]
    exact BitVec.extractLsb'_append_extractLsb' (w := 24)
  rw [← split w, ← split w', ht, ho, hi]

theorem fields_encode (i : Instr) :
    topField (encode i) = 0#8 ∧ opField (encode i) = opcode i ∧ immField (encode i) = immediate i :=
  Laws.fields_of_word _ _

/-- A word that decodes is the word of the command it decodes to. -/
theorem encode_of_decode {w : Word} {i : Instr} (h : decode w = .ok i) : encode i = w := by
  obtain ⟨ht, ho, hi⟩ := fields_of_decode h
  obtain ⟨ht', ho', hi'⟩ := fields_encode i
  exact eq_of_fields_eq (ht'.trans ht.symm) (ho'.trans ho.symm) (hi'.trans hi.symm)

end Sys2Proof
end

section
/-! PROOFS. What one step of any agent but reset can do to the registers RESULT, CRC, CK8, SEQ, NOW, IOERR_CNT, LINK, RUNNING and the
active snapshot (10_state R36 to R59): said once, as a relation between the two views of the state. -/

namespace Sys2Proof.Machine

/-! ### The view -/

/-- The registers that only a few steps change, as a view of the state. -/
structure Registers where
  result : ResultCode
  crc : Half
  ck8 : Byte
  seq : Half
  now : Time
  ioErrCnt : Half
  link : LinkState
  running : Bool
  active : Snapshot

def State.registers (s : State) : Registers :=
  { result := s.result, crc := s.crc, ck8 := s.ck8, seq := s.seq, now := s.now, ioErrCnt := s.ioErrCnt, link := s.link,
    running := s.running, active := s.active }

@[simp] theorem registers_result (s : State) : s.registers.result = s.result := rfl
@[simp] theorem registers_crc (s : State) : s.registers.crc = s.crc := rfl
@[simp] theorem registers_ck8 (s : State) : s.registers.ck8 = s.ck8 := rfl
@[simp] theorem registers_seq (s : State) : s.registers.seq = s.seq := rfl
@[simp] theorem registers_now (s : State) : s.registers.now = s.now := rfl
@[simp] theorem registers_ioErrCnt (s : State) : s.registers.ioErrCnt = s.ioErrCnt := rfl
@[simp] theorem registers_link (s : State) : s.registers.link = s.link := rfl
@[simp] theorem registers_running (s : State) : s.registers.running = s.running := rfl
@[simp] theorem registers_active (s : State) : s.registers.active = s.active := rfl

/-! ### The shared operations -/

@[simp] theorem raise_registers (c : ResultCode) (s : State) :
    (raise c s).registers = { s.registers with result := c } := rfl

@[simp] theorem countIoErr_registers (s : State) :
    (countIoErr s).registers = { s.registers with ioErrCnt := satInc16 s.ioErrCnt } := rfl

@[simp] theorem enqueue_registers (ev : Event) (s : State) : (enqueue ev s).registers = s.registers := by
  rcases enqueue_cases ev s with ⟨_, e⟩ | ⟨_, e⟩ <;> rw [e] <;> rfl

theorem transportWrite_registers (F : List Byte) (s : State) :
    (transportWrite F s).registers = s.registers ∨
      (transportWrite F s).registers = { s.registers with ioErrCnt := satInc16 s.ioErrCnt } := by
  rcases transportWrite_cases F s with ⟨_, e⟩ | ⟨_, _, e⟩ <;> rw [e]
  · exact .inl rfl
  · exact .inr rfl

@[simp] theorem feed1_emitHost_registers (b : Byte) (s : State) : (feed1 emitHost b s).registers = s.registers :=
  feed1_preserves State.registers (fun _ _ => rfl) (fun _ s => enqueue_registers _ s) b s

@[simp] theorem feedAll_emitTick_registers (t : Time) (bs : List Byte) (s : State) :
    (feedAll (emitTick t) bs s).registers = s.registers :=
  feedAll_preserves State.registers (fun _ _ => rfl) (fun _ s => enqueue_registers _ { s with lastRx := t }) bs s

/-- An error count that moves goes up by one (40_checksum R153). -/
theorem satInc16_eq_or_toNat (x : Half) : satInc16 x = x ∨ (satInc16 x).toNat = x.toNat + 1 := by
  unfold satInc16
  split
  · exact .inl (Eq.symm ‹_›)
  · exact .inr (by bv_omega)

theorem satInc16_satInc16_toNat {x : Half} (h : satInc16 (satInc16 x) ≠ x) :
    (satInc16 (satInc16 x)).toNat = x.toNat + 1 ∨ (satInc16 (satInc16 x)).toNat = x.toNat + 2 := by
  rcases satInc16_eq_or_toNat x with h1 | h1
  · exact absurd (by rw [h1, h1]) h
  · rcases satInc16_eq_or_toNat (satInc16 x) with h2 | h2
    · exact .inl (by rw [h2, h1])
    · exact .inr (by rw [h2, h1])

/-! ### The effects -/

/-- What a step of the agent `a` makes of the registers `g`. -/
inductive RegisterEffect (g : Registers) : AgentStep → Registers → Prop
  /-- Any step may leave them alone. -/
  | keeps (a : AgentStep) : RegisterEffect g a g
  | timePasses (n : Time) (h : g.now ≤ n) : RegisterEffect g (.time n) { g with now := n }
  | crcWritten (v : Word) (c : Half) : RegisterEffect g (.write .word 0x010#12 v) { g with crc := c }
  | ck8Written (v : Word) (c : Byte) : RegisterEffect g (.write .word 0x014#12 v) { g with ck8 := c }
  | seqWritten (v : Word) (q : Half) (h : g.running = false) : RegisterEffect g (.write .word 0x018#12 v) { g with seq := q }
  /-- A command, legal or not, that writes RESULT and none of the others. -/
  | resultOnly (w : Word) (r : ResultCode) : RegisterEffect g (.write .word 0x008#12 w) { g with result := r }
  | crcCommand (w : Word) (h : opField w ∈ [0x01#8, 0x02#8, 0x03#8]) (c : Half) (r : ResultCode) :
      RegisterEffect g (.write .word 0x008#12 w) { g with crc := c, result := r }
  | ck8Command (w : Word) (h : opField w ∈ [0x04#8, 0x05#8, 0x06#8]) (c : Byte) (r : ResultCode) :
      RegisterEffect g (.write .word 0x008#12 w) { g with ck8 := c, result := r }
  | committed (c : Snapshot) : RegisterEffect g (.write .word 0x008#12 0x00000014#32) { g with active := c, result := .ok }
  | started (h : g.running = false) :
      RegisterEffect g (.write .word 0x008#12 0x00000030#32) { g with running := true, ioErrCnt := 0#16, result := .ok }
  | stopped (h : g.running = true) :
      RegisterEffect g (.write .word 0x008#12 0x00000031#32) { g with running := false, link := .stale, result := .ok }
  | sendFailed :
      RegisterEffect g (.write .word 0x008#12 0x00000032#32) { g with ioErrCnt := satInc16 g.ioErrCnt, result := .ok }
  /-- A tick: the gate fires or not, no, one or two transport calls fail, and the watchdog decides LINK. -/
  | ticked (q : Half) (c : Snapshot) (e : Half) (l : LinkState) (hq : q = g.seq ∨ q = g.seq + 1#16)
      (hc : c = g.active ∨ c = { g.active with ammo := 0#32 })
      (he : e = g.ioErrCnt ∨ e = satInc16 g.ioErrCnt ∨ e = satInc16 (satInc16 g.ioErrCnt)) :
      RegisterEffect g .tick { g with seq := q, active := c, ioErrCnt := e, link := l }

/-! ### The tick -/

theorem transmitGate_registers (t : Time) (s : State) :
    ∃ q c e, (q = s.seq ∨ q = s.seq + 1#16) ∧ (c = s.active ∨ c = { s.active with ammo := 0#32 }) ∧
      (e = s.ioErrCnt ∨ e = satInc16 s.ioErrCnt) ∧
      (transmitGate t s).registers = { s.registers with seq := q, active := c, ioErrCnt := e } := by
  rcases transmitGate_cases t s with ⟨_, hs⟩ | ⟨_, hs⟩ <;> rw [hs]
  · exact ⟨_, _, _, .inl rfl, .inl rfl, .inl rfl, rfl⟩
  · obtain h | h := transportWrite_registers (encA s (s.seq + 1#16) s.active.ammo)
      { s with seq := s.seq + 1#16, active := { s.active with ammo := 0#32 } }
    · exact ⟨_, _, _, .inr rfl, .inr rfl, .inl rfl, h⟩
    · exact ⟨_, _, _, .inr rfl, .inr rfl, .inr rfl, h⟩

theorem receive_registers (t : Time) (s : State) :
    ∃ e, (e = s.registers.ioErrCnt ∨ e = satInc16 s.registers.ioErrCnt) ∧
      (receive t s).registers = { s.registers with ioErrCnt := e } := by
  rcases receive_cases t s with ⟨_, hs⟩ | ⟨_, _, hs⟩ | ⟨_, _, _, hs⟩ <;> rw [hs]
  · exact ⟨_, .inl rfl, rfl⟩
  · exact ⟨_, .inr rfl, rfl⟩
  · exact ⟨_, .inl rfl, feedAll_emitTick_registers t _ _⟩

theorem watchdog_registers (t : Time) (s : State) :
    ∃ l, (watchdog t s).registers = { s.registers with link := l } := by
  rcases watchdog_cases t s with ⟨_, hs⟩ | ⟨_, hs⟩ <;> rw [hs]
  · exact ⟨.stale, enqueue_registers _ _⟩
  · exact ⟨.synced, rfl⟩

/-- The three phases in order: the second error count starts from what the gate left. -/
theorem tick_registers (s : State) : RegisterEffect s.registers .tick (tick s).registers := by
  unfold tick
  split
  · obtain ⟨q, c, e, hq, hc, he, gate⟩ := transmitGate_registers s.now s
    obtain ⟨e', he', read⟩ := receive_registers s.now (transmitGate s.now s)
    obtain ⟨l, dog⟩ := watchdog_registers s.now (receive s.now (transmitGate s.now s))
    rw [gate] at he' read
    rw [dog, read]
    refine .ticked q c e' l hq hc ?_
    rcases he' with rfl | rfl <;> rcases he with rfl | rfl <;> simp
  · exact .keeps _

/-! ### The commands -/

theorem linkStart_registers (s : State) :
    RegisterEffect s.registers (.write .word 0x008#12 0x00000030#32)
      (if s.running then raise .busy s else openLink s).registers := by
  split
  · exact .resultOnly _ _
  · unfold openLink
    split
    · rw [raise_registers, startLink, enqueue_registers]
      exact .started (by simpa using ‹¬s.running = true›)
    · exact .resultOnly _ _

theorem linkStop_registers (s : State) :
    RegisterEffect s.registers (.write .word 0x008#12 0x00000031#32)
      (if s.running then raise .ok (stopLink s) else raise .notRunning s).registers := by
  split
  · have closed := enqueue_registers .connClosed (transportClose s)
    have stop : (raise .ok (stopLink s)).registers =
        { (enqueue .connClosed (transportClose s)).registers with running := false, link := .stale, result := .ok } := rfl
    rw [stop, closed]
    exact .stopped ‹_›
  · exact .resultOnly _ _

theorem linkSend_registers (s : State) :
    RegisterEffect s.registers (.write .word 0x008#12 0x00000032#32)
      (if s.running then raise .ok (if s.frameLen = 0#8 then s else transportWrite (sendBytes s) s)
        else raise .notRunning s).registers := by
  split
  · rw [raise_registers]
    split
    · exact .resultOnly _ _
    · obtain h | h := transportWrite_registers (sendBytes s) s <;> rw [h]
      · exact .resultOnly _ _
      · exact .sendFailed
  · exact .resultOnly _ _

/-- What each command makes of the registers, as the write of its own word. -/
theorem exec_registers {i : Instr} {s t : State} (h : exec i s = .next t) :
    RegisterEffect s.registers (.write .word 0x008#12 (encode i)) t.registers := by
  obtain ⟨-, hop, -⟩ := fields_encode i
  cases i <;> obtain rfl := Host.Outcome.next.inj h
  case crcInit => exact .crcCommand _ (by simp [hop, opcode]) _ _
  case crcByte b => exact .crcCommand _ (by simp [hop, opcode]) _ _
  case crcBuf len =>
    split
    · exact .crcCommand _ (by simp [hop, opcode]) _ _
    · exact .resultOnly _ _
  case ck8Init => exact .ck8Command _ (by simp [hop, opcode]) _ _
  case ck8Byte b => exact .ck8Command _ (by simp [hop, opcode]) _ _
  case ck8Buf len =>
    split
    · exact .ck8Command _ (by simp [hop, opcode]) _ _
    · exact .resultOnly _ _
  case snapCommit => exact .committed _
  case syncFeed b =>
    split
    · exact .resultOnly _ _
    · rw [raise_registers, feed1_emitHost_registers]
      exact .resultOnly _ _
  case syncClr => split <;> exact .resultOnly _ _
  case linkStart => exact linkStart_registers s
  case linkStop => exact linkStop_registers s
  case linkSend => exact linkSend_registers s
  case evqPop => split <;> exact .resultOnly _ _
  case nop | frmSeal | frmCheck | frmEncA | frmEncD => exact .resultOnly _ _

theorem performCommand_registers {w : Word} {s t : State} (h : performCommand w s = .next t) :
    RegisterEffect s.registers (.write .word 0x008#12 w) t.registers := by
  rcases performCommand_cases w s with ⟨i, hi, e⟩ | ⟨_, _, e⟩
  · rw [← encode_of_decode hi]
    exact exec_registers (e.symm.trans h)
  · obtain rfl := Host.Outcome.next.inj (e.symm.trans h)
    exact .resultOnly _ _

/-! ### The agents -/

theorem writeRegister_registers (r : Register) (v : Word) (s : State) :
    RegisterEffect s.registers (wr r v) (writeRegister r v s).registers := by
  cases r with
  | crc => exact .crcWritten _ _
  | ck8 => exact .ck8Written _ _
  | seq =>
    cases hs : s.running
    · rw [writeRegister_seq_of_stopped hs]
      exact .seqWritten _ _ hs
    · rw [writeRegister_seq_of_running hs]
      exact .keeps _
  | _ => exact .keeps _

theorem hostWrite_registers {off : Offset} (ha : off.toNat % 4 = 0) {v : Word} {s t : State}
    (h : hostWrite (registerAt off) v s = .next t) :
    RegisterEffect s.registers (.write .word off v) t.registers := by
  by_cases hm : registerAt off = .unmapped
  · rw [hm] at h
    obtain rfl := Host.Outcome.next.inj h
    exact .keeps _
  · have hoff := eq_registerOffset_of_registerAt ha rfl hm
    rcases hostWrite_cases (registerAt off) v s with ⟨hr, e⟩ | ⟨_, e⟩
    · rw [hoff, hr]
      exact performCommand_registers (e.symm.trans h)
    · obtain rfl := Host.Outcome.next.inj (e.symm.trans h)
      have effect := writeRegister_registers (registerAt off) v s
      rwa [wr, ← hoff] at effect

theorem hostRead_registers (r : Register) (s : State) : (hostRead r s).registers = s.registers := by
  cases r <;> rfl

/-- The one lemma about every step but reset. -/
theorem agentStep_registers {a : AgentStep} {s t : State} (h : agentStep a s = .next t) (hr : a ≠ .reset) :
    RegisterEffect s.registers a t.registers := by
  cases a with
  | time n =>
    obtain rfl := Host.Outcome.next.inj h
    unfold advanceTime
    split
    · exact .timePasses n ‹_›
    · exact .keeps _
  | tick =>
    obtain rfl := Host.Outcome.next.inj h
    exact tick_registers s
  | rx bs =>
    obtain rfl := Host.Outcome.next.inj h
    unfold transportArrive
    split <;> exact .keeps _
  | read width off =>
    obtain ⟨-, -, rfl⟩ := agentStep_read_eq_next h
    rw [hostRead_registers]
    exact .keeps _
  | write width off v =>
    obtain ⟨rfl, ha, hw⟩ := agentStep_write_eq_next h
    exact hostWrite_registers ha hw
  | drawOpen o | drawWrite o | drawRead o =>
    obtain rfl := Host.Outcome.next.inj h
    exact .keeps _
  | reset => exact absurd rfl hr

end Sys2Proof.Machine

namespace Sys2Proof.Proofs

open Sys2Proof.Machine Sys2Proof.Claims

/-- Settles O59: each effect a step can have names the registers it writes. -/
theorem onlyTheirOwnStepsChangeRegisters : Obligations.OnlyTheirOwnStepsChangeRegisters := by
  intro a s t h hr
  have effect := agentStep_registers h hr
  simp only [← registers_result, ← registers_crc, ← registers_ck8, ← registers_seq, ← registers_now, ← registers_ioErrCnt,
    ← registers_link, ← registers_running, ← registers_active]
  generalize s.registers = g at *
  generalize t.registers = g' at *
  cases effect with
  | keeps => simp
  | timePasses n hn => simp [hn]
  | crcWritten v c => simp
  | ck8Written v c => simp
  | seqWritten v q hs => simp [hs]
  | resultOnly w r => simp
  | crcCommand w hw c r => simpa [opField] using fun _ : ¬c = g.crc => hw
  | ck8Command w hw c r => simpa [opField] using fun _ : ¬c = g.ck8 => hw
  | committed c => simp
  | started hs => simp [hs]
  | stopped hs => simp [hs]
  | sendFailed => simpa using (satInc16_eq_or_toNat g.ioErrCnt).resolve_left
  | ticked q c e l hq hc he =>
    have count : ¬e = g.ioErrCnt → e.toNat = g.ioErrCnt.toNat + 1 ∨ e.toNat = g.ioErrCnt.toNat + 2 := by
      rcases he with rfl | rfl | rfl
      · exact fun hne => absurd rfl hne
      · exact fun hne => .inl ((satInc16_eq_or_toNat _).resolve_left hne)
      · exact satInc16_satInc16_toNat
    simpa using ⟨hq.resolve_left, count, hc.resolve_left⟩

end Sys2Proof.Proofs
end

section
/-! PROOFS. The registers of the window as the host writes and reads them (10_state R32 to R54). -/

namespace Sys2Proof.Machine

open Sys2Proof.Claims

/-! ### CTRL and STATUS -/

/-- The variant that a write of CTRL leaves (10_state R32). -/
theorem variantAfter_of_running {s : State} (h : s.running = true) (v : Word) : variantAfter v s = s.variant :=
  if_pos h

theorem variantAfter_of_stopped {s : State} (h : s.running = false) (v : Word) :
    variantAfter v s = (variantOf (v.extractLsb' 0 2)).getD s.variant :=
  if_neg (by simp [h])

theorem variantAfter_of_reserved {v : Word} (h : v.extractLsb' 0 2 = 2#2 ∨ v.extractLsb' 0 2 = 3#2) (s : State) :
    variantAfter v s = s.variant := by
  cases hs : s.running
  · rw [variantAfter_of_stopped hs]
    rcases h with h | h <;> rw [h] <;> rfl
  · exact variantAfter_of_running hs v

theorem ctrlWord_fields (s : State) :
    (ctrlWord s).extractLsb' 0 2 = s.variant.bits ∧ (ctrlWord s).getLsbD 2 = s.irqEn ∧
      (ctrlWord s).extractLsb' 3 29 = 0#29 := by
  unfold ctrlWord
  refine ⟨BitVec.extractLsb'_append_eq_right, ?_, ?_⟩
  · rw [BitVec.getLsbD_append, BitVec.getLsbD_append]
    simp
  · rw [BitVec.extractLsb'_append_eq_of_le (by decide)]
    exact BitVec.extractLsb'_append_eq_left

theorem statusWord_bits (s : State) :
    (statusWord s).getLsbD 0 = s.running ∧ (statusWord s).getLsbD 1 = s.link.flag ∧
      (statusWord s).getLsbD 2 = s.openFail ∧ (statusWord s).getLsbD 3 = s.evqOvf ∧
      (statusWord s).getLsbD 4 = evqNotEmpty s ∧ (statusWord s).getLsbD 5 = irqLine s := by
  unfold statusWord
  refine ⟨?_, ?_, ?_, ?_, ?_, ?_⟩ <;> repeat rw [BitVec.getLsbD_append]
  all_goals simp

theorem statusWord_fields (s : State) :
    (statusWord s).extractLsb' 6 2 = 0#2 ∧ (statusWord s).extractLsb' 8 8 = BitVec.ofNat 8 s.evq.length ∧
      (statusWord s).extractLsb' 16 8 = BitVec.ofNat 8 s.rxBuf.length ∧ (statusWord s).extractLsb' 24 8 = 0#8 := by
  unfold statusWord
  refine ⟨?_, ?_, ?_, ?_⟩ <;> repeat rw [BitVec.extractLsb'_append_eq_of_le (by decide)]
  · exact BitVec.extractLsb'_append_eq_right
  · exact BitVec.extractLsb'_append_eq_right
  · exact BitVec.extractLsb'_append_eq_right
  · exact BitVec.extractLsb'_eq_self


/-- In a state that meets the invariant each count of STATUS fits its field (10_state R33). -/
theorem toNat_ofNat_counts {s : State} (h : Inv s) :
    (BitVec.ofNat 8 s.evq.length).toNat = s.evq.length ∧ (BitVec.ofNat 8 s.rxBuf.length).toNat = s.rxBuf.length := by
  have depth := Params.evqDepth_le s.params
  have size := frameSize_le s.params (rxFormat s.variant)
  have evq := h.evqBound
  have rxBuf : s.rxBuf.length < frameSize s.params (rxFormat s.variant) := h.rxBuf
  simp only [BitVec.toNat_ofNat]
  omega

theorem evqNotEmpty_eq_true_iff (s : State) : evqNotEmpty s = true ↔ s.evq ≠ [] := by
  simp [evqNotEmpty]

theorem LinkState.flag_eq_true_iff (l : LinkState) : l.flag = true ↔ l = .synced := by
  cases l <;> decide

theorem writeStatus_eq (v : Word) (s : State) :
    writeStatus v s =
      { s with
        openFail := if v.getLsbD 2 then false else s.openFail, evqOvf := if v.getLsbD 3 then false else s.evqOvf } := by
  unfold writeStatus
  cases v.getLsbD 2 <;> cases v.getLsbD 3 <;> simp

/-! ### The snapshot registers -/

theorem setWidth_setWidth_eq_and {w k : Nat} (v : BitVec w) :
    (v.setWidth k).setWidth w = v &&& (BitVec.allOnes k).setWidth w := by
  ext i hi
  simp [hi, Bool.and_comm]

theorem get_set_same (c : Snapshot) (f : SnapField) (v : Word) : (c.set f v).get f = v &&& snapMask f := by
  cases f with
  | t0 | t1 | t2 | t3 | ammo => exact (BitVec.and_allOnes (x := v)).symm
  | mode | flags | manual | burst | dOp | dVal => exact setWidth_setWidth_eq_and v

theorem get_set_of_ne (c : Snapshot) {f g : SnapField} (h : g ≠ f) (v : Word) : (c.set f v).get g = c.get g := by
  cases f <;> cases g
  case mode.mode | t0.t0 | t1.t1 | t2.t2 | t3.t3 | flags.flags | manual.manual | burst.burst | ammo.ammo | dOp.dOp |
      dVal.dVal => exact absurd rfl h
  all_goals rfl

theorem stagingOffset_eq (f : SnapField) : BitVec.ofNat 12 (stagingOffset f) = registerOffset (.staging f) := by
  cases f <;> rfl

theorem stagingOffset_add_eq (f : SnapField) :
    BitVec.ofNat 12 (stagingOffset f + 0x40) = registerOffset (.active f) := by
  cases f <;> rfl

/-! ### Words of four bytes -/

theorem packWord_lane (lane : Nat → Byte) {j : Nat} (h : j < 4) :
    (packWord (lane 0) (lane 1) (lane 2) (lane 3)).extractLsb' (8 * j) 8 = lane j := by
  unfold packWord
  match j, h with
  | 0, _ => exact BitVec.extractLsb'_append_eq_right
  | 1, _ =>
    rw [BitVec.extractLsb'_append_eq_of_le (by decide)]
    exact BitVec.extractLsb'_append_eq_right
  | 2, _ =>
    rw [BitVec.extractLsb'_append_eq_of_le (by decide), BitVec.extractLsb'_append_eq_of_le (by decide)]
    exact BitVec.extractLsb'_append_eq_right
  | 3, _ =>
    rw [BitVec.extractLsb'_append_eq_of_le (by decide), BitVec.extractLsb'_append_eq_of_le (by decide)]
    exact BitVec.extractLsb'_append_eq_left

theorem packWord_lanes (v : Word) :
    packWord (v.extractLsb' 0 8) (v.extractLsb' 8 8) (v.extractLsb' 16 8) (v.extractLsb' 24 8) = v := by
  have top : v.extractLsb' 24 8 ++ v.extractLsb' 16 8 = v.extractLsb' 16 16 :=
    BitVec.extractLsb'_append_extractLsb'_eq_extractLsb' (start₂ := 24) rfl
  have mid : v.extractLsb' 16 16 ++ v.extractLsb' 8 8 = v.extractLsb' 8 24 :=
    BitVec.extractLsb'_append_extractLsb'_eq_extractLsb' (start₂ := 16) rfl
  rw [packWord, top, mid]
  exact BitVec.extractLsb'_append_extractLsb' (w := 24)

section FrameBufWord

variable {k : Nat} (hk : k < 64) (v : Word) (s : State)
include hk

theorem fb_putFb_le4 (i : Nat) : (putFb (4 * k) (le4 v) s).fb i =
    if 4 * k ≤ i ∧ i < 4 * k + 4 then (le4 v).getD (i - 4 * k) 0x00#8 else s.fb i :=
  fb_putFb s (4 * k) (le4 v) (by simp only [le4, frameBufSize, List.length_cons, List.length_nil]; omega) i

/-- A host write of a FRAMEBUF word puts lane `j` at the word's byte `j` (10_state R53, 20_memory R82). -/
theorem fb_putFb_le4_lane {j : Nat} (hj : j < 4) :
    (putFb (4 * k) (le4 v) s).fb (4 * k + j) = v.extractLsb' (8 * j) 8 := by
  rw [fb_putFb_le4 hk, if_pos (by omega), Nat.add_sub_cancel_left]
  match j, hj with
  | 0, _ | 1, _ | 2, _ | 3, _ => rfl

theorem fb_putFb_le4_of_outside {i : Nat} (hi : i < 4 * k ∨ 4 * k + 4 ≤ i) :
    (putFb (4 * k) (le4 v) s).fb i = s.fb i := by
  rw [fb_putFb_le4 hk, if_neg (by omega)]

theorem frameBufWord_putFb_le4 : frameBufWord k (putFb (4 * k) (le4 v) s) = v := by
  have lane {j : Nat} := fb_putFb_le4_lane hk v s (j := j)
  have lane0 : (putFb (4 * k) (le4 v) s).fb (4 * k) = v.extractLsb' 0 8 := lane (j := 0) (by decide)
  rw [frameBufWord, lane0, lane (by decide), lane (by decide), lane (by decide)]
  exact packWord_lanes v

end FrameBufWord

/-! ### The event window -/

theorem length_of_validFrame {p : Params} {f : Format} {F : List Byte} (h : validFrame p f F = true) :
    F.length = frameSize p f := by
  by_contra hne
  simp [validFrame, hne] at h

/-- A sound event's record is no longer than a frame, so LEN holds its length (10_state R46, R60). -/
theorem length_record_le {p : Params} {e : Event} (h : EventOk p e) : e.record.length ≤ 255 := by
  cases e with
  | telemetry F =>
    rcases h with ⟨valid, -⟩ | ⟨valid, -⟩ <;>
      exact (length_of_validFrame valid).trans_le (frameSize_le p _)
  | linkTimeout | connOpened | connClosed => exact Nat.zero_le _

theorem evqHeadWord_nil {s : State} (h : s.evq = []) : evqHeadWord s = 0#32 := by
  simp [evqHeadWord, h]

theorem evqHeadWord_cons {s : State} {e : Event} {rest : List Event} (h : s.evq = e :: rest) :
    evqHeadWord s = 1#1 ++ 0#15 ++ BitVec.ofNat 8 e.record.length ++ 0#6 ++ e.typeCode := by
  simp [evqHeadWord, h]

theorem evqHeadWord_fields {s : State} {e : Event} {rest : List Event} (h : s.evq = e :: rest) :
    (evqHeadWord s).getLsbD 31 = true ∧ (evqHeadWord s).extractLsb' 8 8 = BitVec.ofNat 8 e.record.length ∧
      (evqHeadWord s).extractLsb' 0 2 = e.typeCode ∧ (evqHeadWord s).extractLsb' 2 6 = 0#6 ∧
      (evqHeadWord s).extractLsb' 16 15 = 0#15 := by
  rw [evqHeadWord_cons h]
  refine ⟨?_, ?_, BitVec.extractLsb'_append_eq_right, ?_, ?_⟩
  · repeat rw [BitVec.getLsbD_append]
    simp
  · repeat rw [BitVec.extractLsb'_append_eq_of_le (by decide)]
    exact BitVec.extractLsb'_append_eq_right
  · repeat rw [BitVec.extractLsb'_append_eq_of_le (by decide)]
    exact BitVec.extractLsb'_append_eq_right
  · repeat rw [BitVec.extractLsb'_append_eq_of_le (by decide)]
    exact BitVec.extractLsb'_append_eq_right

theorem evDataWord_lane (k : Nat) (s : State) {j : Nat} (h : j < 4) :
    (evDataWord k s).extractLsb' (8 * j) 8 = (headRecord s).getD (4 * k + j) 0#8 :=
  packWord_lane (fun j => (headRecord s).getD (4 * k + j) 0#8) h

/-! ### The chosen step -/

/-- The head of the agenda steps next, from the state without it (00_scope R14). -/
theorem step_of_agenda {s : State} {a : AgentStep} {rest : List AgentStep} (h : s.agenda = a :: rest) :
    step s = agentStep a { s with agenda := rest, drawCount := s.drawCount + 1 } := by
  simp [step, chosenStep, afterChoice, h]

theorem performCommand_of_decode {w : Word} {i : Instr} (h : decode w = .ok i) (s : State) :
    performCommand w s = exec i s := by
  simp [performCommand, h]

end Sys2Proof.Machine

namespace Sys2Proof.Proofs

open Sys2Proof.Machine Sys2Proof.Claims

/-- Settles O44: the write by RUNNING and the value of VARIANT, the read field by field. -/
theorem ctrlWriteRule : Obligations.CtrlWriteRule := by
  refine ⟨fun s v => ⟨writeCtrl v s, agentStep_wr (r := .ctrl) trivial v s, rfl, ?_, ?_, ?_, ?_, ?_⟩, fun s => ?_, rfl, rfl⟩
  · rintro (running | reserved)
    · exact variantAfter_of_running running v
    · exact variantAfter_of_reserved reserved s
  · intro stopped zero
    exact (variantAfter_of_stopped stopped v).trans (by rw [zero]; rfl)
  · intro stopped one
    exact (variantAfter_of_stopped stopped v).trans (by rw [one]; rfl)
  · exact fun changed => if_neg changed
  · exact fun kept => if_pos kept
  · obtain ⟨variant, irqEn, high⟩ := ctrlWord_fields s
    refine ⟨ctrlWord s, agentStep_rd (r := .ctrl) trivial s, ?_, irqEn, high⟩
    rw [variant]
    cases s.variant <;> rfl

/-- Settles O45: STATUS as read field by field, and the two bits a write clears. -/
theorem statusFieldsAndClear : Obligations.StatusFieldsAndClear := by
  refine ⟨fun s => ?_, fun s v => ?_⟩
  · obtain ⟨running, link, openFail, evqOvf, evqNe, irq⟩ := statusWord_bits s
    obtain ⟨reserved, evqCount, rxCount, high⟩ := statusWord_fields s
    refine ⟨statusWord s, agentStep_rd (r := .status) trivial s, running, ?_, openFail, evqOvf, ?_, ?_, irq.symm, reserved,
      high, fun inv => ?_⟩
    · rw [link]
      exact LinkState.flag_eq_true_iff s.link
    · rw [evqNe]
      exact evqNotEmpty_eq_true_iff s
    · rw [irq, evqNe]
      rfl
    · rw [evqCount, rxCount]
      exact toNat_ofNat_counts inv
  · rw [← writeStatus_eq]
    exact agentStep_wr (r := .status) trivial v s

/-- Settles O47: the read of NOW_LO latches the half that the read of NOW_HI gives. -/
theorem nowReadsGiveOneSample : Obligations.NowReadsGiveOneSample := by
  refine ⟨fun s => ⟨hostRead .nowLo s, s.now.extractLsb' 0 32, agentStep_rd (r := .nowLo) trivial s, rfl, rfl, rfl,
    fun u latched => ⟨u.nowHiLatch, agentStep_rd (r := .nowHi) trivial u, ?_⟩⟩, rfl⟩
  rw [latched]
  exact BitVec.extractLsb'_append_extractLsb' (w := 32)

/-- Settles O48: a staging register and its mirror, by the field's own offset. -/
theorem snapshotRegisterAccess : Obligations.SnapshotRegisterAccess := by
  intro f v s
  rw [stagingOffset_eq, stagingOffset_add_eq]
  refine ⟨⟨writeRegister (.staging f) v s, agentStep_wr (r := .staging f) trivial v s, rfl, get_set_same _ f v,
    fun g hg => get_set_of_ne _ hg v, ?_⟩, agentStep_wr (r := .active f) trivial v s, agentStep_rd (r := .active f) trivial s⟩
  rw [← get_set_same s.staging f v]
  exact agentStep_rd (r := .staging f) trivial _

/-- Settles O49: the write of a FRAMEBUF word byte by byte, and the word read back. -/
theorem frameBufWordAccess : Obligations.FrameBufWordAccess := by
  intro k v s hk
  have lane {j : Nat} := fb_putFb_le4_lane hk v s (j := j)
  refine ⟨putFb (4 * k) (le4 v) s, agentStep_wr (r := .frameBuf k) hk v s, rfl, lane (j := 0) (by decide),
    lane (j := 1) (by decide), lane (j := 2) (by decide), lane (j := 3) (by decide),
    fun i hi => fb_putFb_le4_of_outside hk v s hi, ?_⟩
  have read := agentStep_rd (r := .frameBuf k) hk (putFb (4 * k) (le4 v) s)
  rwa [hostRead_of_ne_nowLo (by simp), readValue, frameBufWord_putFb_le4 hk] at read

/-- Settles O50: the head event's fields and its record's bytes. -/
theorem eventWindowShowsHead : Obligations.EventWindowShowsHead := by
  refine ⟨fun s empty => ?_, fun s e rest head inv => ?_, fun k s hk => ?_⟩
  · rw [← evqHeadWord_nil empty]
    exact agentStep_rd (r := .evqHead) trivial s
  · obtain ⟨valid, len, type, low, high⟩ := evqHeadWord_fields head
    refine ⟨evqHeadWord s, agentStep_rd (r := .evqHead) trivial s, valid, ?_, type, low, high⟩
    have bound := length_record_le (inv.evqEvents e (by simp [head]))
    rw [len, BitVec.toNat_ofNat]
    omega
  · refine ⟨evDataWord k s, agentStep_rd (r := .evData k) hk s, fun j hj => ?_⟩
    rw [evDataWord_lane k s hj, headRecord]
    cases s.evq <;> rfl

/-- Settles O6: the head of the agenda is the write, and the write is the command. -/
theorem commandRunsInsideWriteStep : Obligations.CommandRunsInsideWriteStep := by
  refine ⟨fun s w rest i issues hi => ?_, fun s rest next => ?_⟩
  · rw [step_of_agenda issues, ← performCommand_of_decode hi]
    exact agentStep_wr (r := .cmd) trivial w _
  · rw [step_of_agenda next]
    exact agentStep_rd (r := .cmd) trivial _

/-- Settles O46: each register by its offset, its width and its zero-extension. -/
theorem plainRegisterAccess : Obligations.PlainRegisterAccess := by
  refine ⟨fun s v => ?_, fun s => ?_, rfl, rfl, rfl, rfl, rfl, rfl, rfl, rfl⟩
  · have low8 : v.extractLsb' 0 8 = v.setWidth 8 := (BitVec.setWidth_eq_extractLsb' (by decide)).symm
    have low16 : v.extractLsb' 0 16 = v.setWidth 16 := (BitVec.setWidth_eq_extractLsb' (by decide)).symm
    rw [low8, low16]
    have seq := agentStep_wr (r := .seq) trivial v s
    exact ⟨agentStep_wr (r := .crc) trivial v s, agentStep_wr (r := .ck8) trivial v s,
      fun stopped => seq.trans (congrArg _ (writeRegister_seq_of_stopped stopped v)),
      fun running => seq.trans (congrArg _ (writeRegister_seq_of_running running v)),
      agentStep_wr (r := .tTx) trivial v s, agentStep_wr (r := .tWd) trivial v s,
      agentStep_wr (r := .frameLen) trivial v s, agentStep_wr (r := .subIdA) trivial v s⟩
  · simp only [zero_append_eq_setWidth]
    exact ⟨agentStep_rd (r := .result) trivial s, agentStep_rd (r := .crc) trivial s, agentStep_rd (r := .ck8) trivial s,
      agentStep_rd (r := .seq) trivial s, agentStep_rd (r := .tTx) trivial s, agentStep_rd (r := .tWd) trivial s,
      agentStep_rd (r := .frameLen) trivial s, agentStep_rd (r := .ioErrCnt) trivial s,
      agentStep_rd (r := .subIdA) trivial s⟩

/-- Settles O54: the two guards, NOW for a time step and RUNNING for received bytes. -/
theorem environmentSteps : Obligations.EnvironmentSteps := by
  refine ⟨fun s n later => ?_, fun s n earlier => ?_, fun s bs running => ?_, fun s bs stopped => ?_⟩
  · exact congrArg Host.Outcome.next (if_pos later)
  · exact congrArg Host.Outcome.next (if_neg (BitVec.not_le.mpr earlier))
  · exact congrArg Host.Outcome.next (if_pos running)
  · exact congrArg Host.Outcome.next (if_neg (by simp [stopped]))

end Sys2Proof.Proofs
end

section
/-! PROOFS. The address space: which words of the window are unmapped or read-only, which accesses fault, and what a read
changes (20_memory R81, R83, R84). -/

namespace Sys2Proof.Machine

open Sys2Proof.Claims

/-! ### Unmapped and read-only words -/

theorem registerAt_inWindow (off : Offset) : (registerAt off).InWindow := by
  unfold registerAt
  simp only
  split
  · simp only [Register.InWindow]
    omega
  · split
    · simp only [Register.InWindow]
      omega
    · split
      · cases snapFieldAt (off.toNat - 0x80) <;> trivial
      · split
        · cases snapFieldAt (off.toNat - 0x40) <;> trivial
        · split <;> trivial

/-- The map's registers stand outside the ranges that 10_state R63 leaves out. -/
theorem not_unmappedOffset_registerOffset {r : Register} (hw : r.InWindow) (hr : r ≠ .unmapped) :
    ¬ UnmappedOffset (registerOffset r).toNat := by
  unfold UnmappedOffset
  cases r with
  | unmapped => exact absurd rfl hr
  | staging f => have := snapFieldOffset_le f; rw [toNat_registerOffset_staging]; omega
  | active f => have := snapFieldOffset_le f; rw [toNat_registerOffset_active]; omega
  | frameBuf k => have hk : k < 64 := hw; rw [toNat_registerOffset_frameBuf hk]; omega
  | evData k => have hk : k < 64 := hw; rw [toNat_registerOffset_evData hk]; omega
  | _ => decide

theorem registerAt_of_unmappedOffset {off : Offset} (h : UnmappedOffset off.toNat) : registerAt off = .unmapped := by
  by_contra mapped
  have hoff : off = registerOffset (registerAt off) := eq_registerOffset_of_registerAt h.left rfl mapped
  rw [hoff] at h
  exact not_unmappedOffset_registerOffset (registerAt_inWindow off) mapped h

/-- A register at a read-only offset is none that a write changes, nor CMD. -/
theorem hostWrite_of_readOnlyOffset {r : Register} (hw : r.InWindow) (h : ReadOnlyOffset (registerOffset r).toNat)
    (v : Word) (s : State) : hostWrite r v s = .next s := by
  unfold ReadOnlyOffset at h
  cases r with
  | result | nowLo | nowHi | ioErrCnt | evqHead | active | evData | unmapped => rfl
  | staging f => have := snapFieldOffset_le f; rw [toNat_registerOffset_staging] at h; omega
  | frameBuf k => have hk : k < 64 := hw; rw [toNat_registerOffset_frameBuf hk] at h; omega
  | _ => exact absurd h (by decide)

theorem hostWrite_registerAt_of_readOnlyOffset {off : Offset} (h : ReadOnlyOffset off.toNat) (v : Word) (s : State) :
    hostWrite (registerAt off) v s = .next s := by
  by_cases hm : registerAt off = .unmapped
  · rw [hm]
    rfl
  · have hoff : off = registerOffset (registerAt off) := eq_registerOffset_of_registerAt h.left rfl hm
    exact hostWrite_of_readOnlyOffset (registerAt_inWindow off) (hoff ▸ h) v s

/-! ### Accesses that fault -/

/-- A host access, read or write, that is not an aligned 32-bit access. -/
def BadHostAccess : AgentStep → Prop
  | .read width off => BadAccess width off
  | .write width off _ => BadAccess width off
  | _ => False

theorem badHostAccess_iff (a : AgentStep) :
    BadHostAccess a ↔ ∃ width off, BadAccess width off ∧ (a = .read width off ∨ ∃ v, a = .write width off v) := by
  constructor
  · intro bad
    cases a with
    | read width off => exact ⟨width, off, bad, .inl rfl⟩
    | write width off v => exact ⟨width, off, bad, .inr ⟨v, rfl⟩⟩
    | _ => exact bad.elim
  · rintro ⟨width, off, bad, rfl | ⟨v, rfl⟩⟩ <;> exact bad

theorem not_badAccess_iff {width : AccessWidth} {off : Offset} :
    ¬ BadAccess width off ↔ width = .word ∧ off.toNat % 4 = 0 := by
  simp [BadAccess]

theorem exists_accessFault_of_badAccess {width : AccessWidth} {off : Offset} (bad : BadAccess width off) :
    ∃ f, accessFault width off = some f := by
  refine Option.ne_none_iff_exists'.mp fun passes => ?_
  exact not_badAccess_iff.mpr (accessFault_eq_none_iff.mp passes) bad

theorem hostWrite_next (r : Register) (v : Word) (s : State) : ∃ t, hostWrite r v s = .next t := by
  rcases hostWrite_cases r v s with ⟨-, command⟩ | ⟨-, write⟩
  · rw [command]
    exact performCommand_next v s
  · exact ⟨_, write⟩

theorem agentStep_fault_of_badHostAccess {a : AgentStep} (bad : BadHostAccess a) (s : State) :
    ∃ f, agentStep a s = .fault f := by
  cases a with
  | read | write =>
    obtain ⟨f, hf⟩ := exists_accessFault_of_badAccess bad
    exact ⟨f, by simp only [agentStep, hf]⟩
  | _ => exact bad.elim

theorem agentStep_next_of_not_badHostAccess {a : AgentStep} (good : ¬ BadHostAccess a) (s : State) :
    ∃ t, agentStep a s = .next t := by
  cases a with
  | read width off =>
    obtain ⟨rfl, ha⟩ := not_badAccess_iff.mp good
    exact ⟨_, agentStep_read_aligned ha s⟩
  | write width off v =>
    obtain ⟨rfl, ha⟩ := not_badAccess_iff.mp good
    rw [agentStep_write_aligned ha]
    exact hostWrite_next _ v s
  | _ => exact ⟨_, rfl⟩

/-! ### What a read changes -/

theorem hostRead_busData (r : Register) (s : State) : (hostRead r s).busData = some (readValue r s) := by
  cases r <;> rfl

/-- No register reads the value that the host read last. -/
theorem readValue_with_busData (r : Register) (d : Option Word) (s : State) :
    readValue r { s with busData := d } = readValue r s := by
  cases r <;> rfl

theorem hostRead_hostRead_of_ne_nowLo {r : Register} (h : r ≠ .nowLo) (s : State) :
    hostRead r (hostRead r s) = hostRead r s := by
  simp only [hostRead_of_ne_nowLo h, readValue_with_busData]

end Sys2Proof.Machine

namespace Sys2Proof.Proofs

open Sys2Proof.Machine Sys2Proof.Claims

/-- Settles O51: an aligned access of an unmapped word names no register, and a write of a read-only one is dropped. -/
theorem unmappedAndReadOnlyOffsets : Obligations.UnmappedAndReadOnlyOffsets := by
  refine ⟨fun off v s unmapped => ?_, fun off v s readOnly => ?_⟩
  · rw [agentStep_read_aligned unmapped.left, agentStep_write_aligned unmapped.left, registerAt_of_unmappedOffset unmapped]
    exact ⟨rfl, rfl⟩
  · rw [agentStep_write_aligned readOnly.left]
    exact hostWrite_registerAt_of_readOnlyOffset readOnly v s

/-- Settles O52: a bad host access faults, and every other agent step answers a next state. -/
theorem onlyBadAccessFaults : Obligations.OnlyBadAccessFaults := by
  refine ⟨fun a s => ?_, fun a s r refused => ?_⟩
  · rw [← badHostAccess_iff]
    refine ⟨fun ⟨f, fault⟩ => ?_, fun bad => agentStep_fault_of_badHostAccess bad s⟩
    by_contra good
    obtain ⟨t, next⟩ := agentStep_next_of_not_badHostAccess good s
    simp [fault] at next
  · rcases em (BadHostAccess a) with bad | good
    · obtain ⟨f, fault⟩ := agentStep_fault_of_badHostAccess bad s
      simp [refused] at fault
    · obtain ⟨t, next⟩ := agentStep_next_of_not_badHostAccess good s
      simp [refused] at next

/-- Settles O53: NOW_LO is the one register whose read changes more than the value handed to the host. -/
theorem onlyNowLoReadHasSideEffect : Obligations.OnlyNowLoReadHasSideEffect := by
  intro off s ha
  refine ⟨hostRead (registerAt off) s, readValue (registerAt off) s, agentStep_read_aligned ha s, hostRead_busData _ s, ?_,
    fun other => ?_⟩
  · rintro rfl
    rfl
  · have notNowLo : registerAt off ≠ .nowLo := fun h => other (eq_registerOffset_of_registerAt ha h (by simp))
    refine ⟨hostRead_of_ne_nowLo notNowLo s, ?_⟩
    rw [agentStep_read_aligned ha, hostRead_hostRead_of_ne_nowLo notNowLo]

end Sys2Proof.Proofs
end

section
/-! PROOFS. The encoding: the round trip of words and commands, the legal words, the illegal ones (30_encoding R100 to R105), and
the layouts of the two encoders' frames (R120, R124). -/

namespace Sys2Proof

open Sys2Proof.Machine Sys2Proof.Claims

/-! ### The operand forms on the immediate of a command (30_encoding R102) -/

theorem formB8_setWidth (b : Byte) (mk : Byte → Instr) : formB8 (b.setWidth 16) mk = .ok (mk b) := by
  have high : (b.setWidth 16).extractLsb' 8 8 = 0#8 := by
    rw [← zero_append_eq_setWidth (v := 8)]
    exact BitVec.extractLsb'_append_eq_left
  have low : (b.setWidth 16).extractLsb' 0 8 = b := by
    rw [← zero_append_eq_setWidth (v := 8)]
    exact BitVec.extractLsb'_append_eq_right
  rw [formB8, if_pos high, low]

theorem formF_formatNumber (f : Format) (mk : Format → Instr) : formF (formatNumber f) mk = .ok (mk f) := by
  cases f <;> rfl

/-- The opcode map inverts the fields of a well-formed command. -/
theorem decodeOp_fields {i : Instr} (wf : WellFormed i = true) : decodeOp (opcode i).toNat (immediate i) = .ok i := by
  cases i with
  | crcByte b | ck8Byte b | syncFeed b => exact formB8_setWidth b _
  | crcBuf len | ck8Buf len => exact if_pos wf
  | frmSeal f | frmCheck f => exact formF_formatNumber f _
  | _ => rfl

theorem decode_eq_ok_iff {w : Word} {i : Instr} :
    decode w = .ok i ↔ topField w = 0#8 ∧ decodeOp (opField w).toNat (immField w) = .ok i := by
  by_cases top : topField w = 0#8 <;> simp [decode, top]

theorem decode_encode {i : Instr} (wf : WellFormed i = true) : decode (encode i) = .ok i := by
  obtain ⟨top, op, imm⟩ := fields_encode i
  refine decode_eq_ok_iff.mpr ⟨top, ?_⟩
  rw [op, imm, decodeOp_fields wf]

/-- R105 both ways: a well-formed command's word `w`, once computed, is also known to decode to it. -/
theorem encode_eq_and_decode_eq {i : Instr} (wf : WellFormed i = true) {w : Word} (h : encode i = w) :
    encode i = w ∧ decode w = .ok i :=
  ⟨h, h ▸ decode_encode wf⟩

/-! ### When a form accepts an immediate (30_encoding R102) -/

section Forms

variable {imm : Half}

theorem exists_ite_eq_ok_iff {c : Prop} [Decidable c] {i : Instr} {e : DecodeError} :
    (∃ j, (if c then Except.ok i else Except.error e) = .ok j) ↔ c := by
  by_cases h : c <;> simp [h]

theorem exists_formZ_eq_ok_iff {i : Instr} : (∃ j, formZ imm i = .ok j) ↔ imm = 0#16 :=
  exists_ite_eq_ok_iff

theorem exists_formB8_eq_ok_iff {mk : Byte → Instr} : (∃ j, formB8 imm mk = .ok j) ↔ imm.extractLsb' 8 8 = 0#8 :=
  exists_ite_eq_ok_iff

theorem exists_formL_eq_ok_iff {mk : Half → Instr} : (∃ j, formL imm mk = .ok j) ↔ imm.toNat ≤ 256 :=
  exists_ite_eq_ok_iff.trans decide_eq_true_iff

theorem exists_formF_eq_ok_iff {mk : Format → Instr} : (∃ j, formF imm mk = .ok j) ↔ imm.extractLsb' 2 14 = 0#14 :=
  exists_ite_eq_ok_iff

end Forms

theorem wellFormed_of_decodeOp {op : Nat} {imm : Half} {i : Instr} (h : decodeOp op imm = .ok i) : WellFormed i = true := by
  obtain ⟨rfl, rfl⟩ := fields_of_decodeOp h
  cases i with
  | crcBuf len | ck8Buf len => exact decide_eq_true (exists_formL_eq_ok_iff.mp ⟨_, h⟩)
  | _ => rfl

/-! ### The legal words (30_encoding R101 to R104) -/

/-- The OP and IMM of a legal word: `LegalWord` over the fields of the decoder (`legalWord_iff`). -/
def LegalFields (op : Byte) (imm : Half) : Prop :=
  (op ∈ [0x00#8, 0x01#8, 0x04#8, 0x12#8, 0x13#8, 0x14#8, 0x21#8, 0x30#8, 0x31#8, 0x32#8, 0x40#8] ∧ imm = 0#16) ∨
    (op ∈ [0x02#8, 0x05#8, 0x20#8] ∧ imm.extractLsb' 8 8 = 0#8) ∨
    (op ∈ [0x03#8, 0x06#8] ∧ imm.toNat ≤ 256) ∨
    (op ∈ [0x10#8, 0x11#8] ∧ imm.extractLsb' 2 14 = 0#14)

theorem extractLsb'_immField (w : Word) {start len : Nat} (h : start + len ≤ 16) :
    (immField w).extractLsb' start len = w.extractLsb' (8 + start) len := by
  ext i hi
  simp [immField, show start + i < 16 by omega, Nat.add_assoc]

theorem legalWord_iff (w : Word) : LegalWord w ↔ topField w = 0#8 ∧ LegalFields (opField w) (immField w) := by
  rw [LegalFields, extractLsb'_immField w (by decide : 8 + 8 ≤ 16), extractLsb'_immField w (by decide : 2 + 14 ≤ 16)]
  rfl

theorem legalFields_of_decodeOp {op : Byte} {imm : Half} {i : Instr} (h : decodeOp op.toNat imm = .ok i) :
    LegalFields op imm := by
  obtain rfl : opcode i = op := BitVec.eq_of_toNat_eq (fields_of_decodeOp h).left
  cases i with
  | crcByte b | ck8Byte b | syncFeed b => exact .inr (.inl ⟨by simp [opcode], exists_formB8_eq_ok_iff.mp ⟨_, h⟩⟩)
  | crcBuf len | ck8Buf len => exact .inr (.inr (.inl ⟨by simp [opcode], exists_formL_eq_ok_iff.mp ⟨_, h⟩⟩))
  | frmSeal f | frmCheck f => exact .inr (.inr (.inr ⟨by simp [opcode], exists_formF_eq_ok_iff.mp ⟨_, h⟩⟩))
  | _ => exact .inl ⟨by simp [opcode], exists_formZ_eq_ok_iff.mp ⟨_, h⟩⟩

theorem exists_decodeOp_of_legalFields {op : Byte} {imm : Half} (h : LegalFields op imm) :
    ∃ i, decodeOp op.toNat imm = .ok i := by
  obtain ⟨mem, zero⟩ | ⟨mem, byte⟩ | ⟨mem, length⟩ | ⟨mem, format⟩ := h
  · fin_cases mem <;> exact exists_formZ_eq_ok_iff.mpr zero
  · fin_cases mem <;> exact exists_formB8_eq_ok_iff.mpr byte
  · fin_cases mem <;> exact exists_formL_eq_ok_iff.mpr length
  · fin_cases mem <;> exact exists_formF_eq_ok_iff.mpr format

theorem exists_decode_iff_legalWord (w : Word) : (∃ i, decode w = .ok i) ↔ LegalWord w := by
  simp only [decode_eq_ok_iff, exists_and_left, legalWord_iff]
  exact and_congr_right fun _ => ⟨fun ⟨_, h⟩ => legalFields_of_decodeOp h, exists_decodeOp_of_legalFields⟩

/-! ### The illegal words (30_encoding R101, R104) -/

theorem not_reservedOp_opcode (i : Instr) : ¬ ReservedOp (opcode i).toNat := by
  cases i <;> simp [ReservedOp, opcode]

theorem not_legalWord_of_reservedOp {w : Word} (reserved : ReservedOp (opField w).toNat) : ¬ LegalWord w := by
  intro legal
  obtain ⟨i, h⟩ := (exists_decode_iff_legalWord w).mpr legal
  obtain ⟨-, op, -⟩ := fields_of_decode h
  exact not_reservedOp_opcode i (op ▸ reserved)

/-- The list of 30_encoding R104 is the complement of the opcode map. -/
theorem reservedOp_iff (op : Byte) : ReservedOp op.toNat ↔
    op ∉ [0x00#8, 0x01#8, 0x02#8, 0x03#8, 0x04#8, 0x05#8, 0x06#8, 0x10#8, 0x11#8, 0x12#8, 0x13#8, 0x14#8, 0x20#8, 0x21#8,
      0x30#8, 0x31#8, 0x32#8, 0x40#8] := by
  have bound : op.toNat < 256 := op.isLt
  simp only [ReservedOp, List.mem_cons, List.not_mem_nil, ← BitVec.toNat_inj, BitVec.toNat_ofNat, or_false]
  constructor <;> omega

theorem performCommand_of_not_legalWord {w : Word} (illegal : ¬ LegalWord w) (s : State) :
    performCommand w s = .next (raise .illegal s) := by
  cases h : decode w with
  | ok i => exact absurd ((exists_decode_iff_legalWord w).mp ⟨i, h⟩) illegal
  | error e => simp [performCommand, h, complete]

end Sys2Proof

namespace Sys2Proof.Machine

/-! ### The encoders' frames (30_encoding R120, R124) -/

theorem flagByte_eq_ite (flags : BitVec 6) (k : Nat) :
    flagByte flags k = if flags.getLsbD k then 0x01#8 else 0x00#8 := by
  unfold flagByte
  cases flags.getLsbD k <;> rfl

theorem length_payloadA (subId : Byte) (c : Snapshot) (seq : Half) (ammo : Word) : (payloadA subId c seq ammo).length = 33 :=
  rfl

theorem take_encA (s : State) (q : Half) (m : Word) : (encA s q m).take 33 = payloadA s.subIdA s.active q m :=
  List.take_left' (length_payloadA ..)

theorem drop_encA (s : State) (q : Half) (m : Word) : (encA s q m).drop 33 = trailer .A ((encA s q m).take 33) := by
  rw [take_encA]
  exact List.drop_left' (length_payloadA ..)

end Sys2Proof.Machine

namespace Sys2Proof.Proofs

open Sys2Proof.Machine Sys2Proof.Claims

/-- Settles O1: the word's fields are the command's OP and IMM, which the opcode map inverts. -/
theorem decodeEncodeRoundTrip : Obligations.DecodeEncodeRoundTrip :=
  fun _ wf => decode_encode wf

/-- Settles O2: a decoded word has the three fields of the command's word, and form L bounds the length. -/
theorem encodeInvertsDecode : Obligations.EncodeInvertsDecode :=
  fun _ _ h => ⟨encode_of_decode h, wellFormed_of_decodeOp (decode_eq_ok_iff.mp h).right⟩

/-- Settles O4: form by form, the decoder accepts the immediates that the tables admit. -/
theorem decodeAcceptsExactlyLegalWords : Obligations.DecodeAcceptsExactlyLegalWords :=
  exists_decode_iff_legalWord

/-- Settles O5: each of the three causes makes the word illegal, and the write of an illegal word is `raise ILLEGAL`. -/
theorem illegalWordRaisesIllegal : Obligations.IllegalWordRaisesIllegal := by
  refine ⟨fun s w rest issues cause => ?_, reservedOp_iff⟩
  have illegal : ¬ LegalWord w := by
    obtain top | reserved | illegal := cause
    · exact fun legal => top legal.left
    · exact not_legalWord_of_reservedOp reserved
    · exact illegal
  rw [step_of_agenda issues]
  exact (agentStep_wr (r := .cmd) trivial w _).trans (performCommand_of_not_legalWord illegal _)

/-- Settles O3: each example word is the command's word, and so it decodes to the command. -/
theorem commandWordValues : Obligations.CommandWordValues :=
  ⟨fun _ => rfl, encode_eq_and_decode_eq rfl rfl, encode_eq_and_decode_eq rfl rfl, encode_eq_and_decode_eq rfl rfl,
    encode_eq_and_decode_eq rfl rfl, encode_eq_and_decode_eq rfl rfl⟩

/-- Settles O22: the frame written out byte by byte has the rows in order, and the trailer is over the bytes before it. -/
theorem encodedFrameLayouts : Obligations.EncodedFrameLayouts := by
  constructor
  · intro s q m F hF
    have trailerRow : F.drop 33 = le2 (crc16 (F.take 33)) := by rw [hF, drop_encA]; rfl
    simp only [encA, payloadA, trailer, le2, le4, List.cons_append, List.nil_append] at hF
    simp only [← flagByte_eq_ite]
    subst hF
    exact ⟨rfl, rfl, rfl, rfl, rfl, rfl, rfl, rfl, rfl, rfl, rfl, rfl, rfl, rfl, rfl, rfl, rfl, rfl, trailerRow⟩
  · rintro s F rfl
    exact ⟨rfl, rfl, rfl, rfl, rfl⟩

end Sys2Proof.Proofs
end

section
/-! PROOFS. The integrity functions: the rounds and the folds are injective, the frame check is an equation with the trailer, and so
a single-bit change is detected (40_checksum R140 to R145, 41_codec R160); the checksum family (R147 to R152). -/

namespace Sys2Proof.Machine

open Sys2Proof.Claims

/-! ### The CRC keeps registers and bytes apart (40_checksum R140) -/

/-- Bit 0 of 0x1021 is set, so a round leaves the top bit it shifted out in bit 0. -/
theorem getLsbD_zero_crcRound (r : Half) : (crcRound r).getLsbD 0 = r.msb := by
  cases top : r.msb <;> simp [crcRound, top]

theorem eq_of_shiftLeft_one_eq {w : Nat} {r r' : BitVec w} (top : r.msb = r'.msb) (shifted : r <<< 1 = r' <<< 1) : r = r' := by
  ext i hi
  rcases Nat.lt_or_ge (i + 1) w with below | last
  · have bit := congrArg (·.getLsbD (i + 1)) shifted
    simpa [BitVec.getLsbD_shiftLeft, below, hi, BitVec.getLsbD_eq_getElem] using bit
  · obtain rfl : i = w - 1 := by omega
    simpa [BitVec.msb_eq_getLsbD_last, BitVec.getLsbD_eq_getElem, hi] using top

theorem crcRound_injective : Function.Injective crcRound := by
  intro r r' h
  have top : r.msb = r'.msb := by rw [← getLsbD_zero_crcRound r, h, getLsbD_zero_crcRound]
  refine eq_of_shiftLeft_one_eq top ?_
  cases set : r'.msb <;> simpa [crcRound, top, set] using h

theorem crcRounds_injective (n : Nat) : Function.Injective (crcRounds n) := by
  induction n with
  | zero => exact Function.injective_id
  | succ n ih => exact ih.comp crcRound_injective

theorem shiftedByte_injective : Function.Injective fun b : Byte => b.setWidth 16 <<< 8 := by
  intro b b' h
  ext i hi
  have bit := congrArg (·.getLsbD (8 + i)) h
  simpa [show 8 + i < 16 by omega, hi] using bit

theorem crcStep_left_injective (b : Byte) : Function.Injective (crcStep · b) :=
  fun _ _ h => (BitVec.xor_left_inj _).mp (crcRounds_injective 8 h)

theorem crcStep_right_injective (c : Half) : Function.Injective (crcStep c) :=
  fun _ _ h => shiftedByte_injective ((BitVec.xor_right_inj c).mp (crcRounds_injective 8 h))

/-! ### A fold notices one changed byte -/

section Fold

variable {α β : Type} {step : α → β → α}

theorem foldl_injective (left : ∀ b, Function.Injective (step · b)) (bs : List β) :
    Function.Injective fun c => bs.foldl step c := by
  induction bs with
  | nil => exact Function.injective_id
  | cons b bs ih => exact ih.comp (left b)

/-- The fold with one entry changed differs: the step at that entry differs, and no later step can close the gap. -/
theorem foldl_modify_ne (left : ∀ b, Function.Injective (step · b)) (right : ∀ c, Function.Injective (step c)) {g : β → β}
    (changes : ∀ b, g b ≠ b) {bs : List β} {i : Nat} (hi : i < bs.length) (c : α) :
    (bs.modify i g).foldl step c ≠ bs.foldl step c := by
  obtain ⟨front, b, back, rfl, -, modified⟩ := List.exists_of_modify g hi
  rw [modified]
  simp only [List.foldl_append, List.foldl_cons]
  exact fun h => changes b (right _ (foldl_injective left back h))

end Fold

/-! ### One bit flipped -/

theorem flipBit_ne {k : Nat} (hk : k < 8) (b : Byte) : flipBit b k ≠ b := by
  intro same
  have bit := congrArg (·.getLsbD k) same
  simp [flipBit, hk] at bit

theorem length_flipAt (bs : List Byte) (i k : Nat) : (flipAt bs i k).length = bs.length :=
  List.length_modify ..

theorem take_flipAt (bs : List Byte) (i k m : Nat) : (flipAt bs i k).take m = flipAt (bs.take m) i k :=
  List.take_modify ..

theorem drop_flipAt_of_lt {i m : Nat} (h : i < m) (bs : List Byte) (k : Nat) : (flipAt bs i k).drop m = bs.drop m :=
  List.drop_modify_of_lt _ _ _ _ h

theorem drop_flipAt_of_ge {i m : Nat} (h : m ≤ i) (bs : List Byte) (k : Nat) :
    (flipAt bs i k).drop m = flipAt (bs.drop m) (i - m) k :=
  List.drop_modify_of_ge _ _ _ _ h

theorem flipAt_of_length_le {bs : List Byte} {i : Nat} (h : bs.length ≤ i) (k : Nat) : flipAt bs i k = bs :=
  List.modify_eq_self h

theorem flipAt_ne {bs : List Byte} {i k : Nat} (hi : i < bs.length) (hk : k < 8) : flipAt bs i k ≠ bs := by
  obtain ⟨front, b, back, rfl, -, modified⟩ := List.exists_of_modify (flipBit · k) hi
  simp [flipAt, modified, flipBit_ne hk]

theorem crc16_flipAt_ne {bs : List Byte} {i k : Nat} (hi : i < bs.length) (hk : k < 8) : crc16 (flipAt bs i k) ≠ crc16 bs :=
  foldl_modify_ne crcStep_left_injective crcStep_right_injective (flipBit_ne hk) hi _

theorem checksum8_flipAt_ne {bs : List Byte} {i k : Nat} (hi : i < bs.length) (hk : k < 8) :
    checksum8 (flipAt bs i k) ≠ checksum8 bs :=
  foldl_modify_ne (fun b _ _ => (BitVec.add_left_inj b).mp) (fun c _ _ => (BitVec.add_right_inj c).mp) (flipBit_ne hk) hi _

/-! ### The frame check as an equation with the trailer (41_codec R160) -/

theorem fromLe_le2 (v : Half) : fromLe (le2 v) = v.toNat := by
  have low : (v.extractLsb' 0 8).toNat = v.toNat % 256 := rfl
  have high : (v.extractLsb' 8 8).toNat = v.toNat / 256 % 256 := by
    rw [BitVec.extractLsb'_toNat, Nat.shiftRight_eq_div_pow]
  have bound := v.isLt
  simp only [le2, fromLe, low, high]
  omega

theorem fromLe_inj_of_length_eq {bs : List Byte} : ∀ {bs' : List Byte}, bs.length = bs'.length →
    (fromLe bs = fromLe bs' ↔ bs = bs') := by
  induction bs with
  | nil => intro bs' len; simp [List.length_eq_zero_iff.mp len.symm]
  | cons b bs ih =>
    rintro (_ | ⟨b', bs'⟩) len
    · cases len
    · have low := b.isLt
      have low' := b'.isLt
      rw [List.cons.injEq, ← ih (Nat.succ.inj len), ← BitVec.toNat_inj, fromLe, fromLe]
      omega

theorem le2_injective : Function.Injective le2 := by
  intro v w h
  rw [← BitVec.toNat_inj, ← fromLe_le2, ← fromLe_le2, h]

theorem length_trailer (f : Format) (payload : List Byte) : (trailer f payload).length = trailerSize f := by
  cases f <;> rfl

theorem trailer_flipAt_ne (f : Format) {bs : List Byte} {i k : Nat} (hi : i < bs.length) (hk : k < 8) :
    trailer f (flipAt bs i k) ≠ trailer f bs := by
  cases f with
  | A | B => exact fun h => crc16_flipAt_ne hi hk (le2_injective h)
  | C | D => exact fun h => checksum8_flipAt_ne hi hk (List.cons.inj h).left

theorem trailerSize_le_frameSize (p : Params) (f : Format) : trailerSize f ≤ frameSize p f := by
  have size := three_le_frameSize p f
  cases f <;> simp only [trailerSize] <;> omega

theorem validFrame_iff {p : Params} {f : Format} {F : List Byte} :
    validFrame p f F = true ↔ F.length = frameSize p f ∧
      F.drop (frameSize p f - trailerSize f) = trailer f (F.take (frameSize p f - trailerSize f)) := by
  by_cases len : F.length = frameSize p f
  · have sizes : (trailer f (F.take (frameSize p f - trailerSize f))).length =
        (F.drop (frameSize p f - trailerSize f)).length := by
      rw [length_trailer, List.length_drop, len, Nat.sub_sub_self (trailerSize_le_frameSize p f)]
    rw [eq_comm (a := F.drop _), ← fromLe_inj_of_length_eq sizes]
    cases f with
    | A | B => simp [validFrame, len, trailer, fromLe_le2, trailerSize]
    | C | D => simp [validFrame, len, trailer, fromLe, trailerSize]
  · simp [validFrame, len]

theorem validFrame_flipAt {p : Params} {f : Format} {F : List Byte} {i k : Nat} (valid : validFrame p f F = true)
    (hi : i < F.length) (hk : k < 8) : validFrame p f (flipAt F i k) = false := by
  obtain ⟨len, check⟩ := validFrame_iff.mp valid
  rw [Bool.eq_false_iff, Ne, validFrame_iff, length_flipAt]
  rintro ⟨-, flipped⟩
  generalize frameSize p f - trailerSize f = m at check flipped
  rw [take_flipAt] at flipped
  rcases Nat.lt_or_ge i m with inPayload | inTrailer
  · have hi' : i < (F.take m).length := List.length_take ▸ lt_min inPayload hi
    rw [drop_flipAt_of_lt inPayload, check] at flipped
    exact trailer_flipAt_ne f hi' hk flipped.symm
  · have hi' : i - m < (F.drop m).length := List.length_drop ▸ Nat.sub_lt_sub_right inTrailer hi
    rw [drop_flipAt_of_ge inTrailer, flipAt_of_length_le ((List.length_take_le ..).trans inTrailer), ← check] at flipped
    exact flipAt_ne hi' hk flipped

/-! ### Masking once a byte (40_checksum R142) -/

theorem setWidth_unmaskedRound (r : Word) : (unmaskedRound r).setWidth 16 = crcRound (r.setWidth 16) := by
  have top : (r.setWidth 16).msb = r.getLsbD 15 := by simp [BitVec.msb_eq_getLsbD_last]
  have shift : (r <<< 1).setWidth 16 = r.setWidth 16 <<< 1 := BitVec.setWidth_shiftLeft_of_le (by decide)
  rw [unmaskedRound, crcRound, top]
  cases r.getLsbD 15
  · exact shift
  · exact BitVec.setWidth_xor.trans (congrArg (· ^^^ 0x1021#16) shift)

theorem setWidth_unmaskedRounds (n : Nat) : ∀ r : Word, (unmaskedRounds n r).setWidth 16 = crcRounds n (r.setWidth 16) := by
  induction n with
  | zero => exact fun _ => rfl
  | succ n ih => exact fun r => (ih _).trans (congrArg _ (setWidth_unmaskedRound r))

/-! ### The 8-bit sum as a number (40_checksum R143, R152) -/

theorem toNat_ck8From (bs : List Byte) : ∀ c : Byte, (ck8From c bs).toNat = (c.toNat + (bs.map BitVec.toNat).sum) % 256 := by
  induction bs with
  | nil => exact fun c => (Nat.mod_eq_of_lt c.isLt).symm
  | cons b bs ih =>
    intro c
    have rest : (ck8From c (b :: bs)).toNat = ((c + b).toNat + (bs.map BitVec.toNat).sum) % 256 := ih (c + b)
    rw [rest, BitVec.toNat_add, List.map_cons, List.sum_cons]
    omega

/-! ### The checksum family: its words, and the two lengths of CRC.BUF and CK8.BUF -/

/-- The word of a command with a byte operand (30_encoding R102, R105). -/
theorem encode_byteOperand {i : Instr} {op b : Byte} (hop : opcode i = op) (himm : immediate i = b.setWidth 16) :
    encode i = op.setWidth 32 ||| (b.setWidth 32 <<< 8) := by
  rw [encode, hop, himm, BitVec.setWidth_setWidth (by decide)]

/-- An IMM that the opcode map refuses at `op` makes the word illegal (30_encoding R102). -/
theorem illegalWhere_of_decodeOp {op : Byte} {bad : Half → Prop}
    (refused : ∀ imm, bad imm → ¬ ∃ i, decodeOp op.toNat imm = .ok i) : IllegalWhere op bad := by
  rintro w s - rfl himm
  refine performCommand_of_not_legalWord (fun legal => refused _ himm ?_) s
  obtain ⟨i, h⟩ := (exists_decode_iff_legalWord w).mpr legal
  exact ⟨i, (decode_eq_ok_iff.mp h).right⟩

theorem lengthBytes_eq_fbList (len : Half) (s : State) : lengthBytes len s = fbList s len.toNat :=
  fbBytes_eq s len.toNat

section Length

variable {len : Half}

theorem exec_crcBuf_of_le (h : len.toNat ≤ 256) (s : State) :
    exec (.crcBuf len) s = .next { s with crc := crcFrom s.crc (fbList s len.toNat), result := .ok } := by
  rw [← lengthBytes_eq_fbList]
  exact congrArg Host.Outcome.next (if_pos (decide_eq_true h))

theorem exec_crcBuf_of_gt (h : 256 < len.toNat) (s : State) : exec (.crcBuf len) s = .next { s with result := .illegal } :=
  congrArg Host.Outcome.next (if_neg (by simpa [lengthLegal] using h))

theorem exec_ck8Buf_of_le (h : len.toNat ≤ 256) (s : State) :
    exec (.ck8Buf len) s = .next { s with ck8 := ck8From s.ck8 (fbList s len.toNat), result := .ok } := by
  rw [← lengthBytes_eq_fbList]
  exact congrArg Host.Outcome.next (if_pos (decide_eq_true h))

theorem exec_ck8Buf_of_gt (h : 256 < len.toNat) (s : State) : exec (.ck8Buf len) s = .next { s with result := .illegal } :=
  congrArg Host.Outcome.next (if_neg (by simpa [lengthLegal] using h))

end Length

end Sys2Proof.Machine

namespace Sys2Proof.Proofs

open Sys2Proof.Machine Sys2Proof.Claims

/-- Settles O9: each check is a fold whose step is injective in the register and in the byte, and a valid frame's trailer is the
check of its payload, so a flip on either side of the equation breaks it. -/
theorem singleBitFlipIsDetected : Obligations.SingleBitFlipIsDetected :=
  ⟨fun _ _ _ hi hk => ⟨checksum8_flipAt_ne hi hk, crc16_flipAt_ne hi hk⟩,
    fun _ _ _ _ _ valid hi hk => validFrame_flipAt valid hi hk⟩

/-- Settles O8: cutting to 16 bits commutes with every round, and so with the 8 rounds of a byte. -/
theorem maskingOncePerByteAgrees : Obligations.MaskingOncePerByteAgrees := by
  intro c b
  have start : (c.setWidth 32 ^^^ (b.setWidth 32 <<< 8)).setWidth 16 = c ^^^ (b.setWidth 16 <<< 8) := by
    rw [BitVec.setWidth_xor, BitVec.setWidth_shiftLeft_of_le (by decide), BitVec.setWidth_setWidth_of_le _ (by decide),
      BitVec.setWidth_setWidth_of_le _ (by decide), BitVec.setWidth_eq]
  rw [setWidth_unmaskedRounds, start, crcStep]

/-- Settles O10: the sum continued from 0. -/
theorem checksum8IsSumModulo256 : Obligations.Checksum8IsSumModulo256 := by
  intro bs
  rw [checksum8, toNat_ck8From, BitVec.toNat_ofNat, Nat.zero_mod, Nat.zero_add]

/-- Settles O16: the two lengths, and the sum of the selected bytes as a number. -/
theorem ck8BufSumsFrameBuf : Obligations.Ck8BufSumsFrameBuf :=
  ⟨fun _ => rfl, fun _ s h => ⟨_, exec_ck8Buf_of_le h s, rfl, toNat_ck8From _ _⟩, fun _ _ h => exec_ck8Buf_of_le h _,
    fun _ s h => exec_ck8Buf_of_gt h s, illegalWhere_of_decodeOp fun _ bad => mt exists_formL_eq_ok_iff.mp (Nat.not_le.mpr bad)⟩

/-- Settles O7: the functions evaluated on R145's string and on no byte. -/
theorem checksumCheckValues : Obligations.ChecksumCheckValues :=
  ⟨by decide +kernel, by decide, rfl, rfl⟩

/-- Settles O11: the assignment, and form Z's constraint. -/
theorem crcInitSetsInitialValue : Obligations.CrcInitSetsInitialValue :=
  ⟨rfl, fun _ => rfl, illegalWhere_of_decodeOp fun _ => mt exists_formZ_eq_ok_iff.mp⟩

/-- Settles O12: one step of the CRC, form B8's constraint, and the three values of R148. -/
theorem crcByteFoldsOneByte : Obligations.CrcByteFoldsOneByte := by
  refine ⟨fun b => ?_, fun _ _ => rfl, illegalWhere_of_decodeOp fun _ => mt exists_formB8_eq_ok_iff.mp, rfl, ?_, ?_⟩
  · exact encode_byteOperand rfl rfl
  · decide
  · decide

/-- Settles O13: the two lengths, and from the initial value the fold is crc16. -/
theorem crcBufFoldsFrameBuf : Obligations.CrcBufFoldsFrameBuf :=
  ⟨fun _ => rfl, fun _ s h => exec_crcBuf_of_le h s, fun _ _ h => exec_crcBuf_of_le h _,
    fun _ s h => exec_crcBuf_of_gt h s, illegalWhere_of_decodeOp fun _ bad => mt exists_formL_eq_ok_iff.mp (Nat.not_le.mpr bad)⟩

/-- Settles O14: the assignment, and form Z's constraint. -/
theorem ck8InitClearsSum : Obligations.Ck8InitClearsSum :=
  ⟨rfl, fun _ => rfl, illegalWhere_of_decodeOp fun _ => mt exists_formZ_eq_ok_iff.mp⟩

/-- Settles O15: the 9-bit sum cut to 8 bits is the 8-bit sum. -/
theorem ck8ByteAddsModulo256 : Obligations.Ck8ByteAddsModulo256 := by
  refine ⟨fun b => encode_byteOperand rfl rfl, fun b s => ?_, illegalWhere_of_decodeOp fun _ => mt exists_formB8_eq_ok_iff.mp⟩
  have sum : (s.ck8.setWidth 9 + b.setWidth 9).setWidth 8 = s.ck8 + b := by
    rw [BitVec.setWidth_add _ _ (by decide), BitVec.setWidth_setWidth_of_le _ (by decide),
      BitVec.setWidth_setWidth_of_le _ (by decide), BitVec.setWidth_eq, BitVec.setWidth_eq]
  rw [sum]
  rfl

end Sys2Proof.Proofs
end

section
/-! PROOFS. The codec family: the frame check spelled out on the trailer's bytes (41_codec R160), the trailer and the frames as they
stand in FRAMEBUF (R161 to R164), the commit (R168), and the fields of an encoded frame read back (R170). -/

namespace Sys2Proof.Machine

open Sys2Proof.Claims

/-! ### The two kinds of trailer (00_scope R8) -/

section Trailer

variable {f : Format}

theorem trailer_of_crc_format (hf : f = .A ∨ f = .B) (payload : List Byte) : trailer f payload = le2 (crc16 payload) := by
  rcases hf with rfl | rfl <;> rfl

theorem trailerSize_of_crc_format (hf : f = .A ∨ f = .B) : trailerSize f = 2 := by
  rcases hf with rfl | rfl <;> rfl

theorem trailer_of_sum_format (hf : f = .C ∨ f = .D) (payload : List Byte) : trailer f payload = [checksum8 payload] := by
  rcases hf with rfl | rfl <;> rfl

theorem trailerSize_of_sum_format (hf : f = .C ∨ f = .D) : trailerSize f = 1 := by
  rcases hf with rfl | rfl <;> rfl

end Trailer

/-! ### The frame check on the trailer's bytes (41_codec R160) -/

theorem drop_eq_singleton {F : List Byte} {k : Nat} (len : F.length = k + 1) : F.drop k = [F.getD k 0#8] := by
  rw [List.drop_eq_getElem_cons (by omega), List.drop_eq_nil_of_le len.le, List.getD_eq_getElem]

theorem drop_eq_pair {F : List Byte} {k : Nat} (len : F.length = k + 2) : F.drop k = [F.getD k 0#8, F.getD (k + 1) 0#8] := by
  rw [List.drop_eq_getElem_cons (by omega), drop_eq_singleton len, List.getD_eq_getElem F _ (show k < F.length by omega)]

theorem pair_eq_le2_iff {x y : Byte} {v : Half} : [x, y] = le2 v ↔ v.toNat = x.toNat + 256 * y.toNat := by
  have value : fromLe [x, y] = x.toNat + 256 * y.toNat := rfl
  rw [← fromLe_inj_of_length_eq (bs := [x, y]) (bs' := le2 v) rfl, fromLe_le2, value, eq_comm]

theorem validFrame_append_trailer {p : Params} {f : Format} {payload : List Byte}
    (size : payload.length + trailerSize f = frameSize p f) : validFrame p f (payload ++ trailer f payload) = true := by
  have split : frameSize p f - trailerSize f = payload.length := by omega
  rw [validFrame_iff, split, List.drop_left, List.take_left, List.length_append, length_trailer]
  exact ⟨size, rfl⟩

theorem length_encA (s : State) (q : Half) (m : Word) : (encA s q m).length = 35 := rfl

theorem length_encD (s : State) : (encD s).length = 5 := rfl

theorem validFrame_encA (s : State) (q : Half) (m : Word) : validFrame s.params .A (encA s q m) = true :=
  validFrame_append_trailer rfl

theorem validFrame_encD (s : State) : validFrame s.params .D (encD s) = true :=
  validFrame_append_trailer rfl

/-! ### Frames of zeros (41_codec R162) -/

theorem foldl_replicate_of_fixed {α β : Type} {step : α → β → α} {c : α} {b : β} (fixed : step c b = c) (n : Nat) :
    (List.replicate n b).foldl step c = c := by
  induction n with
  | zero => rfl
  | succ n ih => rw [List.replicate_succ, List.foldl_cons, fixed, ih]

theorem checksum8_replicate_zero (n : Nat) : checksum8 (List.replicate n 0x00#8) = 0x00#8 :=
  foldl_replicate_of_fixed rfl n

/-- Zeros keep the register 0 at 0, so from another register they cannot reach it. -/
theorem crc16_replicate_zero_ne (n : Nat) : crc16 (List.replicate n 0x00#8) ≠ 0x0000#16 := by
  have fromZero : crcFrom 0x0000#16 (List.replicate n 0x00#8) = 0x0000#16 := foldl_replicate_of_fixed (by decide) n
  intro h
  have start := foldl_injective crcStep_left_injective _ (h.trans fromZero.symm)
  exact absurd start (by decide)

theorem validFrame_replicate_zero_of_sum_format (p : Params) {f : Format} (hf : f = .C ∨ f = .D) :
    validFrame p f (List.replicate (frameSize p f) 0x00#8) = true := by
  have size := trailerSize_le_frameSize p f
  rw [trailerSize_of_sum_format hf] at size
  rw [validFrame_iff, trailerSize_of_sum_format hf, trailer_of_sum_format hf, List.take_replicate, checksum8_replicate_zero,
    List.drop_replicate, Nat.sub_sub_self size]
  exact ⟨List.length_replicate, rfl⟩

theorem validFrame_replicate_zero_of_crc_format (p : Params) {f : Format} (hf : f = .A ∨ f = .B) :
    validFrame p f (List.replicate (frameSize p f) 0x00#8) = false := by
  have size := trailerSize_le_frameSize p f
  rw [trailerSize_of_crc_format hf] at size
  rw [Bool.eq_false_iff, Ne, validFrame_iff, trailerSize_of_crc_format hf, trailer_of_crc_format hf, List.take_replicate,
    List.drop_replicate, Nat.sub_sub_self size]
  rintro ⟨-, check⟩
  have zeros : List.replicate 2 0x00#8 = le2 0x0000#16 := rfl
  exact crc16_replicate_zero_ne _ (le2_injective (zeros.symm.trans check)).symm

/-! ### FRAMEBUF as the check reads it and as the encoders and the seal write it (10_state R53, 41_codec R161 to R164) -/

theorem fbBytes_eq_fbList (s : State) (n : Nat) : s.fbBytes n = fbList s n :=
  fbBytes_eq s n

theorem exec_frmCheck (f : Format) (s : State) : exec (.frmCheck f) s = .next { s with result := checkResult f s } := rfl

section PutFb

variable {i : Nat} {bs : List Byte} (fits : i + bs.length ≤ frameBufSize) (s : State)
include fits

theorem fb_putFb_add {k : Nat} (hk : k < bs.length) : (putFb i bs s).fb (i + k) = bs.getD k 0x00#8 := by
  rw [fb_putFb s i bs fits, if_pos (by omega), Nat.add_sub_cancel_left]

theorem fb_putFb_of_outside {j : Nat} (hj : j < i ∨ i + bs.length ≤ j) : (putFb i bs s).fb j = s.fb j := by
  rw [fb_putFb s i bs fits, if_neg (by omega)]

end PutFb

/-- A frame put at the start of FRAMEBUF: its bytes there, the old bytes after it. -/
theorem fb_putFb_frame {F : List Byte} {n : Nat} (len : F.length = n) (fits : n ≤ frameBufSize) (s : State) :
    (∀ i, i < n → (putFb 0 F s).fb i = F.getD i 0x00#8) ∧ ∀ i, n ≤ i → (putFb 0 F s).fb i = s.fb i := by
  have room : 0 + F.length ≤ frameBufSize := by omega
  refine ⟨fun i hi => ?_, fun i hi => fb_putFb_of_outside room s (by omega)⟩
  rw [← fb_putFb_add room s (len ▸ hi), Nat.zero_add]

/-! ### The trailer in its place (41_codec R161) -/

theorem sealBytes_eq (f : Format) (s : State) : sealBytes f s = trailer f (fbList s (sealIndex f s)) := by
  rw [sealBytes, fbBytes_eq_fbList]

theorem length_sealBytes (f : Format) (s : State) : (sealBytes f s).length = trailerSize f :=
  length_trailer ..

theorem sealIndex_add_length_le (f : Format) (s : State) : sealIndex f s + (sealBytes f s).length ≤ frameBufSize := by
  rw [length_sealBytes, sealIndex, Nat.sub_add_cancel (trailerSize_le_frameSize s.params f), frameBufSize]
  exact (frameSize_le s.params f).trans (by decide)

theorem fb_seal_add {f : Format} {k : Nat} (hk : k < trailerSize f) (s : State) :
    (putFb (sealIndex f s) (sealBytes f s) s).fb (sealIndex f s + k) =
      (trailer f (fbList s (sealIndex f s))).getD k 0x00#8 := by
  rw [fb_putFb_add (sealIndex_add_length_le f s) s ((length_sealBytes f s).symm ▸ hk), sealBytes_eq]

theorem toNat_ofNat_frameSize (p : Params) (f : Format) : (BitVec.ofNat 8 (frameSize p f)).toNat = frameSize p f := by
  rw [BitVec.toNat_ofNat, Nat.mod_eq_of_lt (Nat.lt_succ_of_le (frameSize_le p f))]

/-! ### Fields read back (30_encoding R125, 41_codec R170) -/

theorem fromLe_singleton (b : Byte) : fromLe [b] = b.toNat := rfl

theorem fromLe_le4 (v : Word) : fromLe (le4 v) = v.toNat := by
  have lane (k : Nat) : (v.extractLsb' k 8).toNat = v.toNat / 2 ^ k % 256 := by
    rw [BitVec.extractLsb'_toNat, Nat.shiftRight_eq_div_pow]
  have bound := v.isLt
  simp only [le4, fromLe, lane]
  omega

theorem fromLe_flagByte (flags : BitVec 6) (k : Nat) : (fromLe [flagByte flags k] == 1) = flags.getLsbD k := by
  rw [flagByte_eq_ite]
  cases flags.getLsbD k <;> rfl

theorem append_fromLe_flagByte (flags : BitVec 6) :
    BitVec.ofBool (fromLe [flagByte flags 5] == 1) ++ BitVec.ofBool (fromLe [flagByte flags 4] == 1)
      ++ BitVec.ofBool (fromLe [flagByte flags 3] == 1) ++ BitVec.ofBool (fromLe [flagByte flags 2] == 1)
      ++ BitVec.ofBool (fromLe [flagByte flags 1] == 1) ++ BitVec.ofBool (fromLe [flagByte flags 0] == 1) = flags := by
  simp only [fromLe_flagByte]
  revert flags
  decide

theorem ofNat_fromLe_singleton (b : Byte) : BitVec.ofNat 8 (fromLe [b]) = b := by
  rw [fromLe_singleton, BitVec.ofNat_toNat, BitVec.setWidth_eq]

theorem ofNat_fromLe_le4 (v : Word) : BitVec.ofNat 32 (fromLe (le4 v)) = v := by
  rw [fromLe_le4, BitVec.ofNat_toNat, BitVec.setWidth_eq]

/-- Row by row, in the order of the record: the bytes at the offset are the field's bytes, which read back as the field. -/
theorem readCommand_encA (s : State) (q : Half) (m : Word) :
    readCommand (encA s q m) = { s.active with ammo := m, dOp := 0#8, dVal := 0#16 } := by
  rw [readCommand, Snapshot.mk.injEq]
  exact ⟨ofNat_fromLe_singleton _, ofNat_fromLe_le4 _, ofNat_fromLe_le4 _, ofNat_fromLe_le4 _, ofNat_fromLe_le4 _,
    append_fromLe_flagByte _, ofNat_fromLe_singleton _, ofNat_fromLe_singleton _, ofNat_fromLe_le4 _, rfl, rfl⟩

end Sys2Proof.Machine

namespace Sys2Proof.Proofs

open Sys2Proof.Machine Sys2Proof.Claims

/-- Settles O17: the trailer ends where the frame ends, inside FRAMEBUF, and its kind is that of the format. -/
theorem frmSealWritesTrailer : Obligations.FrmSealWritesTrailer := by
  refine ⟨fun _ => rfl, fun f s => ⟨_, rfl, rfl, toNat_ofNat_frameSize _ _,
    fun i => fb_putFb_of_outside (sealIndex_add_length_le f s) s, fun hf => ?_, fun hf => ?_⟩,
    illegalWhere_of_decodeOp fun _ => mt exists_formF_eq_ok_iff.mp⟩
  · have size := three_le_frameSize s.params f
    have width := trailerSize_of_crc_format hf
    have index : sealIndex f s = frameSize s.params f - 2 := by rw [sealIndex, width]
    have next : frameSize s.params f - 1 = sealIndex f s + 1 := by omega
    have low := fb_seal_add (f := f) (k := 0) (by omega) s
    have high := fb_seal_add (f := f) (k := 1) (by omega) s
    rw [trailer_of_crc_format hf] at low high
    rw [← index, next]
    exact ⟨rfl, (length_sealBytes f s).trans width, low, high⟩
  · have width := trailerSize_of_sum_format hf
    have index : sealIndex f s = frameSize s.params f - 1 := by rw [sealIndex, width]
    have sum := fb_seal_add (f := f) (k := 0) (by omega) s
    rw [trailer_of_sum_format hf] at sum
    rw [← index]
    exact ⟨rfl, (length_sealBytes f s).trans width, sum⟩

/-- Settles O19: the frame is 35 bytes, put at the start of FRAMEBUF. -/
theorem frmEncAWritesFrame : Obligations.FrmEncAWritesFrame :=
  ⟨rfl, fun s => ⟨_, rfl, rfl, fb_putFb_frame (length_encA s _ _) (by decide) s⟩,
    illegalWhere_of_decodeOp fun _ => mt exists_formZ_eq_ok_iff.mp⟩

/-- Settles O20: the frame is 5 bytes, put at the start of FRAMEBUF. -/
theorem frmEncDWritesFrame : Obligations.FrmEncDWritesFrame :=
  ⟨rfl, fun s => ⟨_, rfl, rfl, fb_putFb_frame (length_encD s) (by decide) s⟩,
    illegalWhere_of_decodeOp fun _ => mt exists_formZ_eq_ok_iff.mp⟩

/-- Settles O23: each frame is a payload under its own trailer, and each field's bytes stand at its offset. -/
theorem commandRecordRoundTrip : Obligations.CommandRecordRoundTrip :=
  fun s q m => ⟨⟨validFrame_encA s q m, validFrame_encD s⟩,
    ⟨readCommand_encA s q m, fromLe_singleton _, fromLe_le2 q, fromLe_le4 m⟩, fromLe_singleton _, fromLe_le2 _⟩

/-- Settles O24: the bytes from the trailer's offset on are the frame's last two, or its last one. -/
theorem frameCheckMeaning : Obligations.FrameCheckMeaning := by
  constructor <;> intro p f F hf
  all_goals
    have size := three_le_frameSize p f
    rw [validFrame_iff]
    refine and_congr_right fun len => ?_
  · have last : frameSize p f - 1 = frameSize p f - 2 + 1 := by omega
    rw [trailerSize_of_crc_format hf, trailer_of_crc_format hf, drop_eq_pair (by omega), ← last]
    exact pair_eq_le2_iff
  · rw [trailerSize_of_sum_format hf, trailer_of_sum_format hf, drop_eq_singleton (by omega), List.singleton_inj]
    exact eq_comm

/-- Settles O18: the three branches of the check in order, and zeros pass a sum but no CRC. -/
theorem frmCheckReportsFrame : Obligations.FrmCheckReportsFrame := by
  refine ⟨fun _ => rfl, fun f s len => ?_, fun f s len invalid => ?_, fun f s len valid => ?_, fun p => ?_,
    illegalWhere_of_decodeOp fun _ => mt exists_formF_eq_ok_iff.mp⟩
  · rw [exec_frmCheck, checkResult, if_pos len]
  · rw [exec_frmCheck, checkResult, if_neg (not_not.mpr len), fbBytes_eq_fbList, if_neg (Bool.eq_false_iff.mp invalid)]
  · rw [exec_frmCheck, checkResult, if_neg (not_not.mpr len), fbBytes_eq_fbList, if_pos valid]
  · exact ⟨validFrame_replicate_zero_of_sum_format p (f := .C) (.inl rfl),
      validFrame_replicate_zero_of_sum_format p (f := .D) (.inr rfl),
      validFrame_replicate_zero_of_crc_format p (f := .A) (.inl rfl)⟩

/-- Settles O21: the commit's choice for A_AMMO, with the two branches in the other order. -/
theorem snapCommitCopiesStaging : Obligations.SnapCommitCopiesStaging := by
  refine ⟨rfl, fun s => ?_, illegalWhere_of_decodeOp fun _ => mt exists_formZ_eq_ok_iff.mp⟩
  rw [← ite_not]
  rfl

end Sys2Proof.Proofs
end

section
/-! PROOFS. The synchronizer as a function of the stream: a buffer and what is still to come hold the same frames, as the scan finds
them, before and after the loop has worked on the buffer, so neither the split into bytes nor that into chunks shows
(42_sync R192 to R199). -/

namespace Sys2Proof.Machine

open Sys2Proof.Claims

section Stream

variable {n : Nat} {h : Byte} {valid : List Byte → Bool}

/-! ### The scan, position by position (42_sync R197) -/

theorem scan_of_short {S : List Byte} (short : S.length < n) (k : Nat) : scan n h valid k S = [] := by
  cases k with
  | zero => rfl
  | succ k => exact if_pos short

/-- Once it counts every byte, the bound on the positions no longer shows. -/
theorem scan_eq_scanFrames (hn : 0 < n) :
    ∀ {k : Nat} {S : List Byte}, S.length ≤ k → scan n h valid k S = scanFrames n h valid S := by
  suffices same : ∀ (k k' : Nat) (S : List Byte), S.length ≤ k → S.length ≤ k' →
      scan n h valid k S = scan n h valid k' S from
    fun {_ _} le => same _ _ _ le le_rfl
  intro k
  induction k with
  | zero =>
    intro k' S le _
    rw [scan_of_short (by omega), scan_of_short (by omega)]
  | succ k ih =>
    rintro (_ | k') S le le'
    · rw [scan_of_short (by omega), scan_of_short (by omega)]
    · have skipFrame := ih k' (S.drop n) (by rw [List.length_drop]; omega) (by rw [List.length_drop]; omega)
      have skipByte := ih k' (S.drop 1) (by rw [List.length_drop]; omega) (by rw [List.length_drop]; omega)
      rw [scan, scan, skipFrame, skipByte]

theorem scanFrames_of_short {S : List Byte} (short : S.length < n) : scanFrames n h valid S = [] :=
  scan_of_short short _

/-- A stream that starts with a frame. -/
theorem scanFrames_frame_append (hn : 0 < n) {F : List Byte} (len : F.length = n) (head : F.head? = some h)
    (check : valid F = true) (S : List Byte) : scanFrames n h valid (F ++ S) = F :: scanFrames n h valid S := by
  have take : (F ++ S).take n = F := List.take_left' len
  have drop : (F ++ S).drop n = S := List.drop_left' len
  have long : ¬(F ++ S).length < n := by rw [List.length_append]; omega
  have here : (F ++ S).head? = some h ∧ valid ((F ++ S).take n) = true := ⟨by rw [List.head?_append, head]; rfl, by rwa [take]⟩
  rw [← scan_eq_scanFrames hn (Nat.le_succ _), scan, if_neg long, if_pos here, take, drop,
    scan_eq_scanFrames hn (by rw [List.length_append]; omega)]

/-- A stream that starts with no frame: its first byte is passed over. -/
theorem scanFrames_cons_of_not (hn : 0 < n) {b : Byte} {S : List Byte}
    (noFrame : b = h → valid ((b :: S).take n) = false) :
    scanFrames n h valid (b :: S) = scanFrames n h valid S := by
  rcases Nat.lt_or_ge (b :: S).length n with short | long
  · rw [scanFrames_of_short short, scanFrames_of_short (Nat.lt_of_succ_lt short)]
  · have skip : ¬((b :: S).head? = some h ∧ valid ((b :: S).take n) = true) := by
      rintro ⟨head, check⟩
      simp [noFrame (by simpa using head)] at check
    rw [← scan_eq_scanFrames hn (Nat.le_succ _), scan, if_neg (Nat.not_lt.mpr long), if_neg skip,
      scan_eq_scanFrames hn (by rw [List.length_drop]; exact Nat.sub_le _ _), List.drop_one, List.tail_cons]

theorem scanFrames_dropWhile_append (hn : 0 < n) (buf T : List Byte) :
    scanFrames n h valid (buf ++ T) = scanFrames n h valid (buf.dropWhile (fun b => b != h) ++ T) := by
  induction buf with
  | nil => rfl
  | cons b buf ih =>
    by_cases hb : b = h
    · simp [hb]
    · rw [List.cons_append, scanFrames_cons_of_not hn fun same => absurd same hb, ih,
        List.dropWhile_cons_of_pos (by simpa using hb)]

/-! ### The loop keeps the frames of the stream (42_sync R192) -/

/-- What the loop emits, and then what the scan finds in the bytes left and those to come, are the frames of the stream. -/
theorem scanFrames_append_eq_resync (hn : 0 < n) (T : List Byte) : ∀ (fuel : Nat) (buf : List Byte), buf.length < fuel →
    scanFrames n h valid (buf ++ T) =
      (resync n h valid fuel buf).1 ++ scanFrames n h valid ((resync n h valid fuel buf).2 ++ T) := by
  intro fuel
  induction fuel with
  | zero => exact fun buf enough => absurd enough (Nat.not_lt_zero _)
  | succ fuel ih =>
    intro buf enough
    have shrinks := dropWhile_length_le h buf
    rw [scanFrames_dropWhile_append hn, resync]
    split
    · rename_i none
      rw [none]
      rfl
    · rename_i c rest found
      obtain rfl := head_of_dropWhile found
      rw [found] at shrinks ⊢
      rw [List.length_cons] at shrinks
      rcases Nat.lt_or_ge (c :: rest).length n with partialFrame | long
      · rw [if_pos partialFrame]
        rfl
      rw [if_neg (Nat.not_lt.mpr long)]
      cases check : valid ((c :: rest).take n) with
      | true =>
        have emitted : scanFrames n c valid (c :: rest ++ T) =
            (c :: rest).take n :: scanFrames n c valid ((c :: rest).drop n ++ T) := by
          have head : ((c :: rest).take n).head? = some c := by simp [List.head?_take, hn.ne']
          rw [← scanFrames_frame_append hn (List.length_take_of_le long) head check, ← List.append_assoc, List.take_append_drop]
        rw [if_pos rfl, emitted]
        split
        · rfl
        · rw [ih _ (by rw [List.length_drop, List.length_cons]; omega)]
          rfl
      | false =>
        have window : (c :: (rest ++ T)).take n = (c :: rest).take n := List.take_append_of_le_length (l₁ := c :: rest) long
        have skipped : scanFrames n c valid (c :: rest ++ T) = scanFrames n c valid (rest ++ T) :=
          scanFrames_cons_of_not hn fun _ => (congrArg valid window).trans check
        rw [if_neg Bool.false_ne_true, skipped, ih rest (by omega)]

/-! ### Chunks and bytes (42_sync R191, R199) -/

/-- A byte is a chunk of one byte. -/
theorem feedByte_eq_feedChunk (buf : List Byte) (b : Byte) : feedByte n h valid buf b = feedChunk n h valid buf [b] := by
  rw [feedByte, feedChunk, List.length_append, List.length_singleton]

theorem feedStream_eq_feedChunks (S : List Byte) : ∀ buf : List Byte,
    (feedStream n h valid buf S).1 = feedChunks n h valid buf (S.map fun b => [b]) := by
  induction S with
  | nil => exact fun _ => rfl
  | cons b S ih =>
    intro buf
    rw [feedStream, List.map_cons, feedChunks, ← feedByte_eq_feedChunk, ih]

theorem length_feedChunk_lt (hn : 0 < n) (buf chunk : List Byte) : (feedChunk n h valid buf chunk).2.length < n := by
  unfold feedChunk
  split
  · assumption
  · exact (resync_spec hn h valid _ _ (Nat.lt_succ_self _)).right

theorem scanFrames_append_eq_feedChunk (hn : 0 < n) (buf chunk T : List Byte) :
    scanFrames n h valid (buf ++ chunk ++ T) =
      (feedChunk n h valid buf chunk).1 ++ scanFrames n h valid ((feedChunk n h valid buf chunk).2 ++ T) := by
  unfold feedChunk
  split
  · rfl
  · exact scanFrames_append_eq_resync hn T _ _ (Nat.lt_succ_self _)

/-- The frames emitted from a stream in chunks are those the scan finds in it, wherever the chunks end. -/
theorem feedChunks_eq_scanFrames (hn : 0 < n) (chunks : List (List Byte)) : ∀ {buf : List Byte}, buf.length < n →
    feedChunks n h valid buf chunks = scanFrames n h valid (buf ++ chunks.flatten) := by
  induction chunks with
  | nil =>
    intro buf short
    rw [List.flatten_nil, List.append_nil, scanFrames_of_short short]
    rfl
  | cons chunk chunks ih =>
    intro buf _
    rw [feedChunks, ih (length_feedChunk_lt hn buf chunk), ← scanFrames_append_eq_feedChunk hn, List.flatten_cons,
      List.append_assoc]

/-! ### The loop invents no byte (42_sync R193, R194) -/

/-- The frames emitted and the bytes left stand in the buffer, in this order. -/
theorem resync_sublist : ∀ (fuel : Nat) (buf : List Byte),
    ((resync n h valid fuel buf).1.flatten ++ (resync n h valid fuel buf).2).Sublist buf := by
  intro fuel
  induction fuel with
  | zero => exact fun buf => List.Sublist.refl buf
  | succ fuel ih =>
    intro buf
    have suffix := (List.dropWhile_suffix (fun b => b != h) (l := buf)).sublist
    rw [resync]
    split
    · exact List.nil_sublist buf
    · rename_i c rest found
      rw [found] at suffix
      refine List.Sublist.trans ?_ suffix
      split_ifs
      · exact List.Sublist.refl _
      · simp
      · have kept := (ih ((c :: rest).drop n)).append_left ((c :: rest).take n)
        rwa [List.take_append_drop, ← List.append_assoc, ← List.flatten_cons] at kept
      · exact (ih rest).cons c

theorem feedByte_sublist (buf : List Byte) (b : Byte) :
    ((feedByte n h valid buf b).1.flatten ++ (feedByte n h valid buf b).2).Sublist (buf ++ [b]) := by
  unfold feedByte
  split
  · exact List.Sublist.refl _
  · exact resync_sublist _ _

/-- From a buffer shorter than a frame, a byte emits no frame, or the whole buffer with the byte, and then no byte stays. -/
theorem feedByte_cases (hn : 0 < n) {buf : List Byte} (short : buf.length < n) (b : Byte) :
    (feedByte n h valid buf b).1 = [] ∨ feedByte n h valid buf b = ([buf ++ [b]], []) := by
  have kept := feedByte_sublist (h := h) (valid := valid) (n := n) buf b
  obtain ⟨sound, -⟩ := feedByte_spec hn h valid buf b
  generalize feedByte n h valid buf b = r at *
  obtain ⟨frames, left⟩ := r
  have room := kept.length_le
  match frames, sound with
  | [], _ => exact .inl rfl
  | [F], sound =>
    obtain ⟨len, -, -⟩ := sound F (List.mem_singleton_self F)
    simp only [List.flatten_singleton, List.length_append, List.length_singleton] at kept room
    obtain rfl : left = [] := List.eq_nil_of_length_eq_zero (by omega)
    rw [List.append_nil] at kept
    rw [kept.eq_of_length_le (by simp; omega)]
    exact .inr rfl
  | F :: G :: rest, sound =>
    obtain ⟨len, -, -⟩ := sound F (by simp)
    obtain ⟨len', -, -⟩ := sound G (by simp)
    simp only [List.flatten_cons, List.length_append, List.length_singleton] at room
    omega

end Stream

end Sys2Proof.Machine

namespace Sys2Proof.Proofs

open Sys2Proof.Machine Sys2Proof.Claims

/-- Settles O28: the bytes are chunks of one byte, and the frames of chunks are those of the scan. -/
theorem synchronizerFindsScanFrames : Obligations.SynchronizerFindsScanFrames := by
  intro n h valid S hn
  have bytes : (S.map fun b => [b]).flatten = S := by rw [← List.flatMap_def, List.flatMap_singleton']
  rw [feedStream_eq_feedChunks, feedChunks_eq_scanFrames hn _ (buf := []) hn, bytes, List.nil_append]

/-- Settles O29: both are the frames that the scan finds in the whole stream. -/
theorem chunkedFeedEmitsSameFrames : Obligations.ChunkedFeedEmitsSameFrames := by
  intro n h valid chunks hn
  rw [synchronizerFindsScanFrames n h valid _ hn, feedChunks_eq_scanFrames hn _ (buf := []) hn, List.nil_append]

/-- Settles O27: the one frame there can be is the whole buffer with the byte. -/
theorem feedByteEmitsAtMostOneFrame : Obligations.FeedByteEmitsAtMostOneFrame := by
  intro n h valid buf b hn short
  obtain ⟨sound, left⟩ := feedByte_spec hn h valid buf b
  rcases feedByte_cases (h := h) (valid := valid) hn short b with none | one
  · rw [none]
    exact ⟨Nat.zero_le 1, Nat.le_sub_one_of_lt left, fun some => absurd rfl some, by simp⟩
  · rw [one] at sound ⊢
    exact ⟨le_rfl, Nat.zero_le _, fun _ => rfl, fun F hF => ⟨List.mem_singleton.mp hF, sound F hF⟩⟩

end Sys2Proof.Proofs
end

section
/-! PROOFS. The synchronizer family: SYNC.FEED while stopped is one byte to the synchronizer and at most one event, and SYNC.CLR
empties RXBUF (42_sync R195, R196). -/

namespace Sys2Proof.Machine

open Sys2Proof.Claims

theorem rxSize_pos (s : State) : 0 < rxSize s :=
  Nat.lt_of_lt_of_le (by decide) (three_le_frameSize s.params (rxFormat s.variant))

theorem synchronized_singleton (s : State) (b : Byte) :
    synchronized s [b] = feedByte (rxSize s) (rxHeader s) (rxValid s) s.rxBuf b :=
  Prod.ext (List.append_nil _) rfl

theorem synchronized_singleton_cases {s : State} (short : s.rxBuf.length < rxSize s) (b : Byte) :
    (synchronized s [b]).1 = [] ∨ synchronized s [b] = ([s.rxBuf ++ [b]], []) := by
  rw [synchronized_singleton]
  exact feedByte_cases (rxSize_pos s) short b

/-- While stopped, SYNC.FEED takes the buffer that the synchronizer leaves and enqueues its frames in order (42_sync R195). -/
theorem exec_syncFeed_of_stopped {s : State} (stopped : s.running = false) {b : Byte} {frames : List (List Byte)}
    {buf : List Byte} (fed : synchronized s [b] = (frames, buf)) :
    exec (.syncFeed b) s = .next (raise .ok (frames.foldl (fun t F => emitHost F t) (setRxBuf buf s))) := by
  have fed1 : feed1 emitHost b s = frames.foldl (fun t F => emitHost F t) (setRxBuf buf s) := by
    rw [feed1, ← synchronized_singleton, fed]
  rw [← fed1]
  exact congrArg Host.Outcome.next (if_neg (by simp [stopped]))

theorem exec_syncFeed_of_running {s : State} (running : s.running = true) (b : Byte) :
    exec (.syncFeed b) s = .next (raise .busy s) :=
  congrArg Host.Outcome.next (if_pos running)

theorem exec_syncClr_of_running {s : State} (running : s.running = true) : exec .syncClr s = .next (raise .busy s) :=
  congrArg Host.Outcome.next (if_pos running)

theorem exec_syncClr_of_stopped {s : State} (stopped : s.running = false) :
    exec .syncClr s = .next (raise .ok (setRxBuf [] s)) :=
  congrArg Host.Outcome.next (if_neg (by simp [stopped]))

end Sys2Proof.Machine

namespace Sys2Proof.Proofs

open Sys2Proof.Machine Sys2Proof.Claims

/-- Settles O25: while stopped, no frame is no event, and one frame is one event that fits or is dropped. -/
theorem syncFeedPushesOneByte : Obligations.SyncFeedPushesOneByte := by
  refine ⟨fun b => encode_byteOperand rfl rfl, fun b s running => exec_syncFeed_of_running running b,
    fun b s buf stopped none => exec_syncFeed_of_stopped stopped none, fun b s F buf stopped one fits => ?_,
    fun b s F buf stopped one full => ?_, fun b s short => ?_,
    illegalWhere_of_decodeOp fun _ => mt exists_formB8_eq_ok_iff.mp⟩
  · have appended : emitHost F (setRxBuf buf s) = { s with rxBuf := buf, evq := s.evq ++ [.telemetry F] } := if_pos fits
    rw [exec_syncFeed_of_stopped stopped one, List.foldl_cons, List.foldl_nil, appended]
    rfl
  · have dropped : emitHost F (setRxBuf buf s) = { s with rxBuf := buf, evqOvf := true } := if_neg (Nat.not_lt.mpr full)
    rw [exec_syncFeed_of_stopped stopped one, List.foldl_cons, List.foldl_nil, dropped]
    rfl
  · rw [synchronized_singleton]
    exact (feedByteEmitsAtMostOneFrame _ _ _ _ b (rxSize_pos s) short).left

/-- Settles O26: the two values of RUNNING, and form Z's constraint. -/
theorem syncClrEmptiesBuffer : Obligations.SyncClrEmptiesBuffer :=
  ⟨rfl, fun _ => exec_syncClr_of_running, fun _ => exec_syncClr_of_stopped,
    illegalWhere_of_decodeOp fun _ => mt exists_formZ_eq_ok_iff.mp⟩

end Sys2Proof.Proofs
end

section
/-! PROOFS. The invariant of the machine, kept by each shared operation, each phase of the tick, each command and each agent
(42_sync R194, 10_state R53 to R60, 43_link R211, R230, R254). A field of the invariant that an operation does not touch is the old
one. -/

namespace Sys2Proof.Machine

open Sys2Proof.Claims

/-! ### What the synchronizer emits and leaves -/

/-- From a buffer shorter than a frame, a stream gives frames only, and leaves less than one (42_sync R192, R194). -/
theorem feedStream_spec {n : Nat} (hn : 0 < n) {h : Byte} {valid : List Byte → Bool} (bs : List Byte) :
    ∀ {buf : List Byte}, buf.length < n →
      (∀ F ∈ (feedStream n h valid buf bs).1, F.length = n ∧ F.head? = some h ∧ valid F = true) ∧
        (feedStream n h valid buf bs).2.length < n := by
  induction bs with
  | nil => exact fun short => ⟨fun F hF => absurd hF List.not_mem_nil, short⟩
  | cons b bs ih =>
    intro buf _
    obtain ⟨first, left⟩ := feedByte_spec hn h valid buf b
    obtain ⟨later, left'⟩ := ih left
    exact ⟨fun F hF => (List.mem_append.mp hF).elim (first F) (later F), left'⟩

theorem telemetryOk_of_rxValid {s : State} {F : List Byte} (head : F.head? = some (rxHeader s)) (valid : rxValid s F = true) :
    TelemetryOk s.params F := by
  unfold rxHeader at head
  unfold rxValid at valid
  cases hv : s.variant with
  | a => rw [hv] at head valid; exact .inl ⟨valid, head⟩
  | b => rw [hv] at head valid; exact .inr ⟨valid, head⟩

theorem synchronized_telemetryOk {s : State} (short : s.rxBuf.length < rxSize s) (bs : List Byte) :
    (∀ F ∈ (synchronized s bs).1, TelemetryOk s.params F) ∧ (synchronized s bs).2.length < rxSize s := by
  obtain ⟨sound, left⟩ := feedStream_spec (rxSize_pos s) (h := rxHeader s) (valid := rxValid s) bs short
  refine ⟨fun F hF => ?_, left⟩
  obtain ⟨-, head, valid⟩ := sound F hF
  exact telemetryOk_of_rxValid head valid

/-! ### Reset -/

theorem inv_resetBlock (s : State) : Inv (resetBlock s) where
  frameBuf := reset_frameBuf_wf
  rxBuf := rxSize_pos _
  evqBound := Nat.zero_le _
  evqEvents := fun _ he => absurd he List.not_mem_nil
  stoppedLink := fun _ => rfl
  stoppedTrx := fun _ => rfl
  lastTx := BitVec.le_refl _
  lastRx := BitVec.le_refl _

/-! ### The shared operations -/

section Operations

variable {s : State} (inv : Inv s)
include inv

theorem Inv.raise (c : ResultCode) : Inv (raise c s) := { inv with }

theorem Inv.countIoErr : Inv (countIoErr s) := { inv with }

theorem Inv.afterChoice : Inv (afterChoice s) := { inv with }

theorem Inv.transportWrite (F : List Byte) : Inv (transportWrite F s) := by
  rcases transportWrite_cases F s with ⟨_, h⟩ | ⟨_, _, h⟩ <;> rw [h] <;> exact { inv with }

theorem Inv.transportClose : Inv (transportClose s) := { inv with stoppedTrx := fun _ => rfl }

theorem Inv.putFb (i : Nat) (bs : List Byte) : Inv (putFb i bs s) := { inv with frameBuf := putFb_wf inv.frameBuf i bs }

theorem Inv.setRxBuf {l : List Byte} (short : l.length < rxSize s) : Inv (setRxBuf l s) := { inv with rxBuf := short }

theorem Inv.enqueue {e : Event} (sound : EventOk s.params e) : Inv (enqueue e s) := by
  rcases enqueue_cases e s with ⟨fits, h⟩ | ⟨_, h⟩ <;> rw [h]
  · exact { inv with
      evqBound := by simpa using fits
      evqEvents := fun e' he' => (List.mem_append.mp he').elim (inv.evqEvents e') fun new => List.mem_singleton.mp new ▸ sound }
  · exact { inv with }

/-! ### The tick -/

/-- The frames of the bytes read are sound, and those that fit come after the events that were there (43_link R217, R240). -/
theorem Inv.feedAll_emitTick {t : Time} (past : t ≤ s.now) (bs : List Byte) : Inv (feedAll (emitTick t) bs s) := by
  obtain ⟨sound, left⟩ := synchronized_telemetryOk inv.rxBuf bs
  rw [Machine.feedAll_emitTick]
  exact { inv with
    rxBuf := left
    evqBound := by
      have bound := inv.evqBound
      simp only [List.length_append, List.length_take]
      omega
    evqEvents := fun e he => (List.mem_append.mp he).elim (inv.evqEvents e) fun new => by
      obtain ⟨F, hF, rfl⟩ := List.mem_map.mp (List.mem_of_mem_take new)
      exact sound F hF
    lastRx := by
      dsimp only
      split
      · exact inv.lastRx
      · exact past }

theorem Inv.transmitGate {t : Time} (past : t ≤ s.now) : Inv (transmitGate t s) := by
  rcases transmitGate_cases t s with ⟨_, h⟩ | ⟨_, h⟩ <;> rw [h]
  · exact inv
  · have taken : Inv { s with seq := s.seq + 1#16, active := { s.active with ammo := 0#32 } } := { inv with }
    exact { taken.transportWrite _ with lastTx := by simpa using past }

theorem Inv.receive {t : Time} (past : t ≤ s.now) : Inv (receive t s) := by
  rcases receive_cases t s with ⟨_, h⟩ | ⟨_, _, h⟩ | ⟨_, k, _, h⟩ <;> rw [h]
  · exact inv
  · exact inv.countIoErr
  · have read : Inv { s with trx := s.trx.drop k } :=
      { inv with stoppedTrx := fun stopped => by simp [inv.stoppedTrx stopped] }
    exact read.feedAll_emitTick past _

theorem Inv.watchdog (t : Time) (running : s.running = true) : Inv (watchdog t s) := by
  rcases watchdog_cases t s with ⟨_, h⟩ | ⟨_, h⟩ <;> rw [h]
  · have stale : Inv { s with link := .stale } := { inv with stoppedLink := fun _ => rfl }
    exact stale.enqueue trivial
  · exact { inv with stoppedLink := fun stopped => by simp [running] at stopped }

theorem Inv.tick : Inv (tick s) := by
  unfold Machine.tick
  split
  · obtain ⟨_, _, _, -, -, -, gate⟩ := transmitGate_registers s.now s
    obtain ⟨_, -, read⟩ := receive_registers s.now (Machine.transmitGate s.now s)
    have now : (Machine.transmitGate s.now s).now = s.now := congrArg Registers.now gate
    have running : (Machine.receive s.now (Machine.transmitGate s.now s)).running = s.running :=
      (congrArg Registers.running read).trans (congrArg Registers.running gate)
    exact ((inv.transmitGate (BitVec.le_refl _)).receive (BitVec.le_of_eq now.symm)).watchdog _ (running.trans ‹_›)
  · exact inv

/-! ### The commands -/

theorem Inv.openLink : Inv (openLink s) := by
  unfold Machine.openLink
  split
  · have opened : Inv { s with
        running := true, lastTx := s.now, lastRx := s.now, rxBuf := [], ioErrCnt := 0x0000#16, openFail := false } :=
      { inv with
        rxBuf := rxSize_pos s
        stoppedLink := fun stopped => absurd stopped.symm Bool.false_ne_true
        stoppedTrx := fun stopped => absurd stopped.symm Bool.false_ne_true
        lastTx := BitVec.le_refl _
        lastRx := BitVec.le_refl _ }
    exact (opened.enqueue (e := .connOpened) trivial).raise _
  · exact { inv with }

theorem Inv.stopLink : Inv (stopLink s) :=
  { inv.transportClose.enqueue (e := .connClosed) trivial with
    stoppedLink := fun _ => rfl
    stoppedTrx := fun _ => enqueue_trx _ _ }

theorem Inv.exec_syncFeed {b : Byte} {t : State} (h : exec (.syncFeed b) s = .next t) : Inv t := by
  cases running : s.running with
  | true =>
    obtain rfl := Host.Outcome.next.inj ((exec_syncFeed_of_running running b).symm.trans h)
    exact inv.raise _
  | false =>
    obtain ⟨sound, left⟩ := synchronized_telemetryOk inv.rxBuf [b]
    rcases fed : synchronized s [b] with ⟨frames, buf⟩
    obtain rfl := Host.Outcome.next.inj ((exec_syncFeed_of_stopped running fed).symm.trans h)
    rw [fed] at sound left
    have kept := inv.setRxBuf left
    rcases synchronized_singleton_cases inv.rxBuf b with none | one
    · obtain rfl : frames = [] := by rwa [fed] at none
      exact kept.raise _
    · obtain ⟨rfl, -⟩ := Prod.mk.inj (fed.symm.trans one)
      exact (kept.enqueue (e := .telemetry _) (sound _ (List.mem_singleton_self _))).raise _

theorem Inv.exec {i : Instr} {t : State} (h : exec i s = .next t) : Inv t := by
  cases i
  case syncFeed b => exact inv.exec_syncFeed h
  all_goals obtain rfl := Host.Outcome.next.inj h
  case frmSeal f => exact { inv.putFb _ _ with }
  case frmEncA | frmEncD => exact { inv.putFb _ _ with }
  case syncClr =>
    split
    · exact inv.raise _
    · exact (inv.setRxBuf (l := []) (rxSize_pos s)).raise _
  case linkStart =>
    split
    · exact inv.raise _
    · exact inv.openLink
  case linkStop =>
    split
    · exact inv.stopLink.raise _
    · exact inv.raise _
  case linkSend =>
    split
    · split
      · exact inv.raise _
      · exact (inv.transportWrite _).raise _
    · exact inv.raise _
  case evqPop =>
    split
    · exact inv.raise _
    · rename_i e rest queue
      have bound := inv.evqBound
      have sound := inv.evqEvents
      rw [queue] at bound sound
      exact { inv with
        evqBound := Nat.le_of_succ_le bound
        evqEvents := fun e he => sound e (List.mem_cons_of_mem _ he) }
  case crcBuf | ck8Buf => split <;> exact { inv with }
  case nop | crcInit | crcByte | ck8Init | ck8Byte | frmCheck | snapCommit => exact { inv with }

theorem Inv.performCommand {w : Word} {t : State} (h : performCommand w s = .next t) : Inv t := by
  rcases performCommand_cases w s with ⟨i, -, e⟩ | ⟨_, -, e⟩
  · exact inv.exec (e.symm.trans h)
  · obtain rfl := Host.Outcome.next.inj (e.symm.trans h)
    exact inv.raise _

/-! ### The agents -/

/-- A change of VARIANT may change the frame size, and empties RXBUF (10_state R32). -/
theorem Inv.writeCtrl (v : Word) : Inv (writeCtrl v s) := by
  unfold Machine.writeCtrl
  split
  · rename_i kept
    rw [kept]
    exact { inv with }
  · exact { inv with rxBuf := rxSize_pos _ }

theorem Inv.writeRegister (r : Register) (v : Word) : Inv (writeRegister r v s) := by
  cases r with
  | ctrl => exact inv.writeCtrl v
  | frameBuf k => exact inv.putFb _ _
  | seq =>
    cases running : s.running with
    | true =>
      rw [writeRegister_seq_of_running running]
      exact inv
    | false =>
      rw [writeRegister_seq_of_stopped running]
      exact { inv with }
  | _ => exact { inv with }

theorem Inv.hostWrite {r : Register} {v : Word} {t : State} (h : hostWrite r v s = .next t) : Inv t := by
  rcases hostWrite_cases r v s with ⟨-, e⟩ | ⟨-, e⟩
  · exact inv.performCommand (e.symm.trans h)
  · obtain rfl := Host.Outcome.next.inj (e.symm.trans h)
    exact inv.writeRegister r v

theorem Inv.hostRead (r : Register) : Inv (hostRead r s) := by
  cases r <;> exact { inv with }

theorem Inv.advanceTime (t : Time) : Inv (advanceTime t s) := by
  unfold Machine.advanceTime
  split
  · rename_i later
    exact { inv with lastTx := BitVec.le_trans inv.lastTx later, lastRx := BitVec.le_trans inv.lastRx later }
  · exact inv

theorem Inv.transportArrive (bs : List Byte) : Inv (transportArrive bs s) := by
  unfold Machine.transportArrive
  split
  · rename_i running
    exact { inv with stoppedTrx := fun stopped => by simp [running] at stopped }
  · exact inv

theorem Inv.agentStep {a : AgentStep} {t : State} (h : agentStep a s = .next t) : Inv t := by
  cases a with
  | read width off =>
    obtain ⟨-, -, rfl⟩ := agentStep_read_eq_next h
    exact inv.hostRead _
  | write width off v =>
    obtain ⟨-, -, hw⟩ := agentStep_write_eq_next h
    exact inv.hostWrite hw
  | time n =>
    obtain rfl := Host.Outcome.next.inj h
    exact inv.advanceTime n
  | tick =>
    obtain rfl := Host.Outcome.next.inj h
    exact inv.tick
  | rx bs =>
    obtain rfl := Host.Outcome.next.inj h
    exact inv.transportArrive bs
  | drawOpen o | drawWrite o | drawRead o =>
    obtain rfl := Host.Outcome.next.inj h
    exact { inv with }
  | reset =>
    obtain rfl := Host.Outcome.next.inj h
    exact inv_resetBlock s

end Operations

end Sys2Proof.Machine

namespace Sys2Proof.Proofs

open Sys2Proof.Machine Sys2Proof.Claims

/-- Settles O56: each agent's step keeps the invariant, and the choice of the agent touches none of its fields. -/
theorem stepKeepsInv : Obligations.StepKeepsInv :=
  fun _ _ inv h => inv.afterChoice.agentStep h

end Sys2Proof.Proofs
end

section
/-! PROOFS. The link family, NOP and the event queue: a transport call or an enqueue as the update its outcome selects, and each
command in the two values of RUNNING (43_link R230 to R234, R240, R252). -/

namespace Sys2Proof.Machine

open Sys2Proof.Claims

/-! ### The shared operations, one equation per outcome -/

theorem enqueue_of_lt {s : State} (fits : s.evq.length < s.params.evqDepth) (ev : Event) :
    enqueue ev s = { s with evq := s.evq ++ [ev] } :=
  if_pos fits

theorem enqueue_of_le {s : State} (full : s.params.evqDepth ≤ s.evq.length) (ev : Event) :
    enqueue ev s = { s with evqOvf := true } :=
  if_neg (Nat.not_lt.mpr full)

theorem transportWrite_of_ok {s : State} (written : writeOutcome s = .ok) (F : List Byte) :
    transportWrite F s = { s with ttx := s.ttx ++ F } := by
  rw [transportWrite, written]

theorem transportWrite_of_err {s : State} {k : Nat} (failed : writeOutcome s = .err k) (F : List Byte) :
    transportWrite F s = { s with ttx := s.ttx ++ F.take (sentOnError k F.length), ioErrCnt := satInc16 s.ioErrCnt } := by
  rw [transportWrite, failed]
  rfl

/-- Below the frame's length the drawn `k` is not capped (43_link R252). -/
theorem sentOnError_of_lt {k m : Nat} (h : k < m) : sentOnError k m = k :=
  Nat.min_eq_left (Nat.le_sub_one_of_lt h)

/-! ### LINK.START and LINK.STOP -/

theorem exec_linkStart_of_running {s : State} (running : s.running = true) : exec .linkStart s = .next (raise .busy s) :=
  congrArg Host.Outcome.next (if_pos running)

theorem exec_linkStart_of_stopped {s : State} (stopped : s.running = false) : exec .linkStart s = .next (openLink s) :=
  congrArg Host.Outcome.next (if_neg (by simp [stopped]))

theorem openLink_of_fail {s : State} (failed : openOutcome s = .fail) :
    openLink s = raise .openFailure { s with openFail := true } := by
  rw [openLink, failed]

theorem openLink_of_ok {s : State} (opened : openOutcome s = .ok) : openLink s = raise .ok (startLink s) := by
  rw [openLink, opened]

theorem exec_linkStop_of_stopped {s : State} (stopped : s.running = false) :
    exec .linkStop s = .next (raise .notRunning s) :=
  congrArg Host.Outcome.next (if_neg (by simp [stopped]))

theorem exec_linkStop_of_running {s : State} (running : s.running = true) :
    exec .linkStop s = .next (raise .ok (stopLink s)) :=
  congrArg Host.Outcome.next (if_pos running)

/-! ### LINK.SEND -/

theorem sendBytes_eq_fbList (s : State) : sendBytes s = fbList s s.frameLen.toNat :=
  fbBytes_eq_fbList s s.frameLen.toNat

theorem length_fbList (s : State) (n : Nat) : (fbList s n).length = n := by
  rw [fbList, List.length_map, List.length_range]

theorem take_fbList (s : State) {k n : Nat} (h : k ≤ n) : (fbList s n).take k = fbList s k := by
  rw [fbList, ← List.map_take, List.take_range, Nat.min_eq_left h, fbList]

theorem exec_linkSend_of_stopped {s : State} (stopped : s.running = false) :
    exec .linkSend s = .next (raise .notRunning s) :=
  congrArg Host.Outcome.next (if_neg (by simp [stopped]))

theorem exec_linkSend_of_zero {s : State} (running : s.running = true) (zero : s.frameLen = 0#8) :
    exec .linkSend s = .next (raise .ok s) :=
  congrArg Host.Outcome.next ((if_pos running).trans (congrArg (raise .ok) (if_pos zero)))

theorem exec_linkSend_of_ne_zero {s : State} (running : s.running = true) (nonzero : s.frameLen ≠ 0#8) :
    exec .linkSend s = .next (raise .ok (transportWrite (fbList s s.frameLen.toNat) s)) := by
  rw [← sendBytes_eq_fbList]
  exact congrArg Host.Outcome.next ((if_pos running).trans (congrArg (raise .ok) (if_neg nonzero)))

/-! ### EVQ.POP -/

theorem exec_evqPop_of_nil {s : State} (empty : s.evq = []) : exec .evqPop s = .next (raise .empty s) := by
  rw [exec, execEvqPop, empty]
  rfl

theorem exec_evqPop_of_cons {s : State} {e : Event} {rest : List Event} (queue : s.evq = e :: rest) :
    exec .evqPop s = .next (raise .ok { s with evq := rest }) := by
  rw [exec, execEvqPop, queue]
  rfl

end Sys2Proof.Machine

namespace Sys2Proof.Proofs

open Sys2Proof.Machine Sys2Proof.Claims

/-- Settles O32: a failed write sends a prefix of FRAMEBUF's first FRAMELEN bytes, which is its first `k` bytes. -/
theorem linkSendWritesFrame : Obligations.LinkSendWritesFrame := by
  refine ⟨rfl, fun _ => exec_linkSend_of_stopped, fun _ => exec_linkSend_of_zero, fun s running nonzero written => ?_,
    fun s k running failed below => ?_, illegalWhere_of_decodeOp fun _ => mt exists_formZ_eq_ok_iff.mp⟩
  · rw [exec_linkSend_of_ne_zero running nonzero, transportWrite_of_ok written]
    rfl
  · have nonzero : s.frameLen ≠ 0#8 := fun zero => by simp [zero] at below
    rw [exec_linkSend_of_ne_zero running nonzero, transportWrite_of_err failed, length_fbList, sentOnError_of_lt below,
      take_fbList s (Nat.le_of_lt below)]
    rfl

/-- Settles O30: the two values of RUNNING, the two outcomes of the open, and CONN_OPENED enqueued or dropped. -/
theorem linkStartOpensLink : Obligations.LinkStartOpensLink := by
  refine ⟨rfl, fun _ => exec_linkStart_of_running, fun s stopped failed => ?_, fun s stopped opened fits => ?_,
    fun s stopped opened full => ?_, illegalWhere_of_decodeOp fun _ => mt exists_formZ_eq_ok_iff.mp⟩
  · rw [exec_linkStart_of_stopped stopped, openLink_of_fail failed]
    rfl
  · rw [exec_linkStart_of_stopped stopped, openLink_of_ok opened, startLink, enqueue_of_lt]
    · rfl
    · exact fits
  · rw [exec_linkStart_of_stopped stopped, openLink_of_ok opened, startLink, enqueue_of_le]
    · rfl
    · exact full

/-- Settles O31: the two values of RUNNING, and CONN_CLOSED enqueued or dropped. -/
theorem linkStopClosesLink : Obligations.LinkStopClosesLink := by
  refine ⟨rfl, fun _ => exec_linkStop_of_stopped, fun s running fits => ?_, fun s running full => ?_,
    illegalWhere_of_decodeOp fun _ => mt exists_formZ_eq_ok_iff.mp⟩
  · rw [exec_linkStop_of_running running, stopLink, enqueue_of_lt]
    · rfl
    · exact fits
  · rw [exec_linkStop_of_running running, stopLink, enqueue_of_le]
    · rfl
    · exact full

/-- Settles O33: the queue is empty or has a head. -/
theorem evqPopRemovesHead : Obligations.EvqPopRemovesHead :=
  ⟨rfl, fun _ => exec_evqPop_of_nil, fun _ _ _ => exec_evqPop_of_cons,
    illegalWhere_of_decodeOp fun _ => mt exists_formZ_eq_ok_iff.mp⟩

/-- Settles O34: the assignment of RESULT, and form Z's constraint. -/
theorem nopWritesOnlyResult : Obligations.NopWritesOnlyResult :=
  ⟨rfl, fun _ => rfl, illegalWhere_of_decodeOp fun _ => mt exists_formZ_eq_ok_iff.mp⟩

/-- Settles O35: the two sides of EVQ_DEPTH. -/
theorem enqueueDropsWhenFull : Obligations.EnqueueDropsWhenFull :=
  fun ev _ => ⟨fun fits => enqueue_of_lt fits ev, fun full => enqueue_of_le full ev⟩

end Sys2Proof.Proofs
end

section
/-! PROOFS. The tick, phase by phase: what the gate, the receive phase and the watchdog each write, what each field holds after
a tick, and the two kinds of tick that the watchdog tells apart (43_link R210 to R223). -/

namespace Sys2Proof.Machine

open Sys2Proof.Claims

/-! ### The transmit gate -/

theorem gateFires_iff (s : State) : gateFires s.now s = true ↔ GateFires s := by
  simp [gateFires, GateFires]

theorem transmitGate_of_not_fires {t : Time} {s : State} (waits : ¬ gateFires t s = true) : transmitGate t s = s :=
  if_neg waits

theorem transmitGate_of_fires {t : Time} {s : State} (fires : gateFires t s = true) :
    transmitGate t s =
      { transportWrite (encA s (s.seq + 1#16) s.active.ammo)
          { s with seq := s.seq + 1#16, active := { s.active with ammo := 0#32 } } with
        lastTx := t } :=
  if_pos fires

theorem transmitGate_of_ok {t : Time} {s : State} (fires : gateFires t s = true) (written : writeOutcome s = .ok) :
    transmitGate t s =
      { s with
        seq := s.seq + 1#16, active := { s.active with ammo := 0#32 }, lastTx := t,
        ttx := s.ttx ++ encA s (s.seq + 1#16) s.active.ammo } := by
  rw [transmitGate_of_fires fires, transportWrite_of_ok]
  exact written

theorem transmitGate_of_err {t : Time} {s : State} {k : Nat} (fires : gateFires t s = true)
    (failed : writeOutcome s = .err k) :
    transmitGate t s =
      { s with
        seq := s.seq + 1#16, active := { s.active with ammo := 0#32 }, lastTx := t,
        ttx := s.ttx ++ (encA s (s.seq + 1#16) s.active.ammo).take (sentOnError k 35), ioErrCnt := satInc16 s.ioErrCnt } := by
  rw [transmitGate_of_fires fires, transportWrite_of_err, length_encA]
  exact failed

theorem transmitGate_ioErrCnt_of_err {s : State} {k : Nat} (fires : GateFires s) (failed : writeOutcome s = .err k) :
    (transmitGate s.now s).ioErrCnt = satInc16 s.ioErrCnt := by
  rw [transmitGate_of_err ((gateFires_iff s).mpr fires) failed]

theorem transmitGate_ioErrCnt_of_no_err {s : State} (noError : ¬ GateFires s ∨ writeOutcome s = .ok) :
    (transmitGate s.now s).ioErrCnt = s.ioErrCnt := by
  by_cases fires : gateFires s.now s = true
  · rw [transmitGate_of_ok fires (noError.resolve_left (not_not_intro ((gateFires_iff s).mp fires)))]
  · rw [transmitGate_of_not_fires fires]

section Gate

variable (t : Time) (s : State)

/-- What the gate may write (43_link R212, R252). -/
theorem transmitGate_frame :
    transmitGate t s =
      { s with
        seq := (transmitGate t s).seq, active := { s.active with ammo := (transmitGate t s).active.ammo },
        lastTx := (transmitGate t s).lastTx, ttx := (transmitGate t s).ttx, ioErrCnt := (transmitGate t s).ioErrCnt } := by
  by_cases fires : gateFires t s = true
  · rw [transmitGate_of_fires fires]
    rcases transportWrite_cases (encA s (s.seq + 1#16) s.active.ammo)
      { s with seq := s.seq + 1#16, active := { s.active with ammo := 0#32 } } with ⟨-, e⟩ | ⟨_, -, e⟩ <;> rw [e]
  · rw [transmitGate_of_not_fires fires]

@[simp] theorem transmitGate_trx : (transmitGate t s).trx = s.trx := by rw [transmitGate_frame]
@[simp] theorem transmitGate_lastRx : (transmitGate t s).lastRx = s.lastRx := by rw [transmitGate_frame]
@[simp] theorem transmitGate_evq : (transmitGate t s).evq = s.evq := by rw [transmitGate_frame]
@[simp] theorem transmitGate_evqOvf : (transmitGate t s).evqOvf = s.evqOvf := by rw [transmitGate_frame]
@[simp] theorem transmitGate_tWd : (transmitGate t s).tWd = s.tWd := by rw [transmitGate_frame]
@[simp] theorem transmitGate_params : (transmitGate t s).params = s.params := by rw [transmitGate_frame]
@[simp] theorem transmitGate_bytesRead : bytesRead (transmitGate t s) = bytesRead s := by
  rw [transmitGate_frame]; rfl
@[simp] theorem transmitGate_synchronized : synchronized (transmitGate t s) = synchronized s := by
  rw [transmitGate_frame]; rfl

end Gate

/-! ### The receive phase -/

/-- The bytes that leave TRX in a tick from `s`: none where the read fails (43_link R216, R218). -/
def delivered (s : State) : List Byte := (bytesRead s).getD []

/-- The frames the synchronizer emits in a tick from `s`, in the order of the stream (43_link R216). -/
def emitted (s : State) : List (List Byte) := (synchronized s (delivered s)).1

theorem delivered_prefix (s : State) : delivered s <+: s.trx := by
  unfold delivered bytesRead
  cases readOutcome s with
  | all => exact List.prefix_rfl
  | take k => exact List.take_prefix k s.trx
  | err => exact List.nil_prefix

theorem delivered_append (s : State) : delivered s ++ s.trx.drop (delivered s).length = s.trx :=
  List.prefix_iff_eq_append.mp (delivered_prefix s)

section Delivered

variable {s : State}

theorem delivered_of_nil (empty : s.trx = []) : delivered s = [] :=
  List.prefix_nil.mp (empty ▸ delivered_prefix s)

theorem delivered_of_none (failed : bytesRead s = none) : delivered s = [] := by
  rw [delivered, failed, Option.getD_none]

theorem delivered_of_some {bs : List Byte} (read : bytesRead s = some bs) : delivered s = bs := by
  rw [delivered, read, Option.getD_some]

theorem emitted_of_nothing_delivered (nothing : delivered s = []) : emitted s = [] := by
  rw [emitted, nothing]
  rfl

end Delivered

theorem transportRead_eq (s : State) :
    transportRead s = (bytesRead s, { s with trx := s.trx.drop (delivered s).length }) := by
  unfold transportRead delivered bytesRead
  cases readOutcome s with
  | all => simp
  | take k =>
    have taken : s.trx.drop (s.trx.take k).length = s.trx.drop k := by
      rw [List.length_take, ← List.drop_eq_drop_min]
    exact congrArg (fun l => (some (s.trx.take k), { s with trx := l })) taken.symm
  | err => rfl

section Read

variable (t : Time) {s : State}

theorem receive_of_nil (empty : s.trx = []) : receive t s = s := by
  rw [receive, empty]

theorem receive_of_none (waiting : s.trx ≠ []) (failed : bytesRead s = none) : receive t s = countIoErr s := by
  unfold receive
  split
  · exact absurd ‹_› waiting
  · rw [transportRead_eq, failed, delivered_of_none failed]
    rfl

theorem receive_of_some {bs : List Byte} (waiting : s.trx ≠ []) (read : bytesRead s = some bs) :
    receive t s = feedAll (emitTick t) bs { s with trx := s.trx.drop bs.length } := by
  unfold receive
  split
  · exact absurd ‹_› waiting
  · rw [transportRead_eq, read, delivered_of_some read]

end Read

section Receive

variable (t : Time) (s : State)

@[simp] theorem transmitGate_delivered : delivered (transmitGate t s) = delivered s := by simp [delivered]
@[simp] theorem transmitGate_emitted : emitted (transmitGate t s) = emitted s := by simp [emitted]

/-- An empty TRX and a failed read both deliver nothing, and only the failed read is counted (43_link R216, R218). -/
theorem receive_eq_feedAll :
    receive t s =
      feedAll (emitTick t) (delivered s)
        { s with
          trx := s.trx.drop (delivered s).length
          ioErrCnt := if s.trx ≠ [] ∧ bytesRead s = none then satInc16 s.ioErrCnt else s.ioErrCnt } := by
  by_cases empty : s.trx = []
  · rw [receive_of_nil t empty, delivered_of_nil empty, if_neg (fun failed => failed.left empty)]
    rfl
  · cases read : bytesRead s with
    | none =>
      rw [receive_of_none t empty read, delivered_of_none read, if_pos ⟨empty, rfl⟩]
      rfl
    | some bs =>
      rw [receive_of_some t empty read, delivered_of_some read, if_neg (by simp)]

/-- What the receive phase writes, field by field (43_link R216 to R219, R240). -/
theorem receive_eq :
    receive t s =
      { s with
        trx := s.trx.drop (delivered s).length
        rxBuf := (synchronized s (delivered s)).2
        lastRx := if emitted s = [] then s.lastRx else t
        evq := s.evq ++ ((emitted s).map Event.telemetry).take (s.params.evqDepth - s.evq.length)
        evqOvf := s.evqOvf || (!(emitted s).isEmpty && decide (s.params.evqDepth < s.evq.length + (emitted s).length))
        ioErrCnt := if s.trx ≠ [] ∧ bytesRead s = none then satInc16 s.ioErrCnt else s.ioErrCnt } := by
  rw [receive_eq_feedAll, feedAll_emitTick]
  rfl

@[simp] theorem receive_seq : (receive t s).seq = s.seq := by rw [receive_eq]
@[simp] theorem receive_active : (receive t s).active = s.active := by rw [receive_eq]
@[simp] theorem receive_lastTx : (receive t s).lastTx = s.lastTx := by rw [receive_eq]
@[simp] theorem receive_ttx : (receive t s).ttx = s.ttx := by rw [receive_eq]
@[simp] theorem receive_tWd : (receive t s).tWd = s.tWd := by rw [receive_eq]

end Receive

/-! ### The watchdog -/

theorem watchdog_of_late {t : Time} {s : State} (late : s.tWd.setWidth 64 < t - s.lastRx) :
    watchdog t s = enqueue .linkTimeout { s with link := .stale } :=
  if_pos (decide_eq_true late)

theorem watchdog_of_in_time {t : Time} {s : State} (inTime : t - s.lastRx ≤ s.tWd.setWidth 64) :
    watchdog t s = { s with link := .synced } :=
  if_neg (by simpa [watchdogExpired] using inTime)

section Watchdog

variable (t : Time) (s : State)

/-- What the watchdog may write (43_link R220 to R222). -/
theorem watchdog_frame :
    watchdog t s =
      { s with link := (watchdog t s).link, evq := (watchdog t s).evq, evqOvf := (watchdog t s).evqOvf } := by
  rcases watchdog_cases t s with ⟨-, e⟩ | ⟨-, e⟩
  · rcases enqueue_cases .linkTimeout { s with link := .stale } with ⟨-, e'⟩ | ⟨-, e'⟩ <;> rw [e, e']
  · rw [e]

@[simp] theorem watchdog_seq : (watchdog t s).seq = s.seq := by rw [watchdog_frame]
@[simp] theorem watchdog_active : (watchdog t s).active = s.active := by rw [watchdog_frame]
@[simp] theorem watchdog_lastTx : (watchdog t s).lastTx = s.lastTx := by rw [watchdog_frame]
@[simp] theorem watchdog_lastRx : (watchdog t s).lastRx = s.lastRx := by rw [watchdog_frame]
@[simp] theorem watchdog_ttx : (watchdog t s).ttx = s.ttx := by rw [watchdog_frame]
@[simp] theorem watchdog_trx : (watchdog t s).trx = s.trx := by rw [watchdog_frame]
@[simp] theorem watchdog_rxBuf : (watchdog t s).rxBuf = s.rxBuf := by rw [watchdog_frame]
@[simp] theorem watchdog_ioErrCnt : (watchdog t s).ioErrCnt = s.ioErrCnt := by rw [watchdog_frame]

end Watchdog

/-! ### The frame of a tick -/

/-- `s` with the fields that a tick may write taken from `t`. -/
def withTickFields (t s : State) : State :=
  { s with
    seq := t.seq, active := { s.active with ammo := t.active.ammo }, lastTx := t.lastTx, lastRx := t.lastRx, link := t.link,
    rxBuf := t.rxBuf, evq := t.evq, evqOvf := t.evqOvf, trx := t.trx, ttx := t.ttx, ioErrCnt := t.ioErrCnt }

theorem eq_withTickFields_trans {s t u : State} (first : t = withTickFields t s) (second : u = withTickFields u t) :
    u = withTickFields u s := by
  rw [second, first]
  rfl

theorem tick_of_running {s : State} (running : s.running = true) :
    tick s = watchdog s.now (receive s.now (transmitGate s.now s)) :=
  if_pos running

theorem tick_of_stopped {s : State} (stopped : s.running = false) : tick s = s :=
  if_neg (by simp [stopped])

theorem tick_eq_withTickFields (s : State) : tick s = withTickFields (tick s) s := by
  cases running : s.running with
  | true =>
    have gate (t : Time) (u : State) : transmitGate t u = withTickFields (transmitGate t u) u := by
      rw [transmitGate_frame]
      rfl
    have read (t : Time) (u : State) : receive t u = withTickFields (receive t u) u := by
      rw [receive_eq]
      rfl
    have dog (t : Time) (u : State) : watchdog t u = withTickFields (watchdog t u) u := by
      rw [watchdog_frame]
      rfl
    rw [tick_of_running running]
    exact eq_withTickFields_trans (gate _ s) (eq_withTickFields_trans (read _ _) (dog _ _))
  | false =>
    rw [tick_of_stopped running]
    rfl

/-! ### The fields after a tick -/

section Running

variable {s : State} (running : s.running = true)
include running

theorem tick_seq : (tick s).seq = (transmitGate s.now s).seq := by simp [tick_of_running running]
theorem tick_active : (tick s).active = (transmitGate s.now s).active := by simp [tick_of_running running]
theorem tick_lastTx : (tick s).lastTx = (transmitGate s.now s).lastTx := by simp [tick_of_running running]
theorem tick_ttx : (tick s).ttx = (transmitGate s.now s).ttx := by simp [tick_of_running running]

theorem tick_trx : (tick s).trx = s.trx.drop (delivered s).length := by
  simp [tick_of_running running, receive_eq]

theorem tick_rxBuf : (tick s).rxBuf = (synchronized s (delivered s)).2 := by
  simp [tick_of_running running, receive_eq]

theorem tick_lastRx : (tick s).lastRx = if emitted s = [] then s.lastRx else s.now := by
  simp [tick_of_running running, receive_eq]

theorem tick_ioErrCnt_of_failed_read (waiting : s.trx ≠ []) (failed : bytesRead s = none) :
    (tick s).ioErrCnt = satInc16 (transmitGate s.now s).ioErrCnt := by
  simp [tick_of_running running, receive_eq, waiting, failed]

theorem tick_ioErrCnt_of_read (read : s.trx = [] ∨ bytesRead s ≠ none) :
    (tick s).ioErrCnt = (transmitGate s.now s).ioErrCnt := by
  simpa [tick_of_running running, receive_eq] using fun waiting failed => absurd failed (read.resolve_left waiting)

/-! ### A late tick and a tick in time -/

/-- A tick that emits a frame sets LAST_RX to its own time, so a late tick emitted none (43_link R217, R220). -/
theorem emitted_of_late (late : s.tWd.setWidth 64 < s.now - (tick s).lastRx) : emitted s = [] := by
  by_contra frames
  rw [tick_lastRx running, if_neg frames, BitVec.sub_self] at late
  exact BitVec.not_lt_zero late

theorem tick_of_late (late : s.tWd.setWidth 64 < s.now - (tick s).lastRx) :
    tick s = enqueue .linkTimeout { receive s.now (transmitGate s.now s) with link := .stale } := by
  rw [tick_of_running running] at late ⊢
  exact watchdog_of_late (by simpa using late)

theorem tick_of_in_time (inTime : s.now - (tick s).lastRx ≤ s.tWd.setWidth 64) :
    tick s = { receive s.now (transmitGate s.now s) with link := .synced } := by
  rw [tick_of_running running] at inTime ⊢
  exact watchdog_of_in_time (by simpa using inTime)

/-- A late tick: STALE, and one LINK_TIMEOUT as the only event, enqueued or dropped (43_link R221, R222, R240). -/
theorem late_tick (late : s.tWd.setWidth 64 < s.now - (tick s).lastRx) :
    (tick s).link = .stale ∧
      (s.evq.length < s.params.evqDepth → (tick s).evq = s.evq ++ [.linkTimeout] ∧ (tick s).evqOvf = s.evqOvf) ∧
      (s.params.evqDepth ≤ s.evq.length → (tick s).evq = s.evq ∧ (tick s).evqOvf = true) := by
  have none := emitted_of_late running late
  refine ⟨by simp [tick_of_late running late], fun fits => ?_, fun full => ?_⟩
  · rw [tick_of_late running late, enqueue_of_lt]
    · simp [receive_eq, none]
    · simpa [receive_eq, none] using fits
  · rw [tick_of_late running late, enqueue_of_le]
    · simp [receive_eq, none]
    · simpa [receive_eq, none] using full

section InTime

variable (inTime : s.now - (tick s).lastRx ≤ s.tWd.setWidth 64)
include inTime

theorem tick_link_of_in_time : (tick s).link = .synced := by rw [tick_of_in_time running inTime]

theorem tick_evq_of_in_time :
    (tick s).evq = s.evq ++ ((emitted s).map Event.telemetry).take (s.params.evqDepth - s.evq.length) := by
  simp [tick_of_in_time running inTime, receive_eq]

theorem tick_evqOvf_of_in_time :
    (tick s).evqOvf =
      (s.evqOvf || (!(emitted s).isEmpty && decide (s.params.evqDepth < s.evq.length + (emitted s).length))) := by
  simp [tick_of_in_time running inTime, receive_eq]

end InTime

/-- A tick that emits no frame keeps LAST_RX, and one in time then keeps the queue too (43_link R219, R220). -/
theorem quiet_tick (none : emitted s = []) :
    (tick s).lastRx = s.lastRx ∧
      (s.now - s.lastRx ≤ s.tWd.setWidth 64 →
        (tick s).link = .synced ∧ (tick s).evq = s.evq ∧ (tick s).evqOvf = s.evqOvf) := by
  have kept : (tick s).lastRx = s.lastRx := by rw [tick_lastRx running, if_pos none]
  refine ⟨kept, fun inTime => ?_⟩
  rw [← kept] at inTime
  refine ⟨tick_link_of_in_time running inTime, ?_, ?_⟩
  · simp [tick_evq_of_in_time running inTime, none]
  · simp [tick_evqOvf_of_in_time running inTime, none]

/-- A tick that emits frames is in time: its own time is the new LAST_RX (43_link R217, R223). -/
theorem tick_in_time_of_emitted (frames : emitted s ≠ []) :
    (tick s).lastRx = s.now ∧ s.now - (tick s).lastRx ≤ s.tWd.setWidth 64 := by
  have set : (tick s).lastRx = s.now := by rw [tick_lastRx running, if_neg frames]
  refine ⟨set, ?_⟩
  rw [set, BitVec.sub_self]
  exact Nat.zero_le _

/-! ### The events a tick adds -/

theorem newEvents_of_late (late : s.tWd.setWidth 64 < s.now - (tick s).lastRx) :
    newEvents s (tick s) = [.linkTimeout] ∨ newEvents s (tick s) = [] := by
  obtain ⟨-, fits, full⟩ := late_tick running late
  rcases Nat.lt_or_ge s.evq.length s.params.evqDepth with h | h
  · exact .inl (by simp [newEvents, fits h])
  · exact .inr (by simp [newEvents, full h])

theorem newEvents_of_in_time (inTime : s.now - (tick s).lastRx ≤ s.tWd.setWidth 64) :
    newEvents s (tick s) = ((emitted s).map Event.telemetry).take (s.params.evqDepth - s.evq.length) := by
  rw [newEvents, tick_evq_of_in_time running inTime, List.drop_left]

/-- A TELEMETRY event that a tick adds is a frame that the synchronizer emitted. -/
theorem mem_emitted_of_telemetry_mem_newEvents {F : List Byte} (new : .telemetry F ∈ newEvents s (tick s)) :
    F ∈ emitted s := by
  by_cases late : s.tWd.setWidth 64 < s.now - (tick s).lastRx
  · rcases newEvents_of_late running late with e | e <;> simp [e] at new
  · rw [newEvents_of_in_time running (BitVec.not_lt.mp late)] at new
    simpa using List.mem_of_mem_take new

end Running

end Sys2Proof.Machine

namespace Sys2Proof.Proofs

open Sys2Proof.Machine Sys2Proof.Claims

/-- Settles O36: each phase leaves the other fields alone, and so do the three in a row. -/
theorem tickFrame : Obligations.TickFrame := by
  intro s
  have frame := tick_eq_withTickFields s
  have ammoOnly : (tick s).active = { s.active with ammo := (tick s).active.ammo } := congrArg State.active frame
  have whole := congrArg (fun a => { withTickFields (tick s) s with active := a }) ammoOnly
  exact ⟨tick s, rfl, tick_of_stopped, frame.trans whole.symm, ammoOnly⟩

/-- Settles O37: the later phases keep what the gate wrote, and only a failed read counts one more error. -/
theorem transmitGateRule : Obligations.TransmitGateRule := by
  refine fun s running => ⟨tick s, rfl, fun fires => ?_, fun waits => ?_,
    fun read => ⟨fun k fires failed => ?_, fun noError => ?_⟩⟩
  · rw [tick_seq running, tick_active running, tick_lastTx running, tick_ttx running]
    have fires := (gateFires_iff s).mpr fires
    refine ⟨by simp [transmitGate_of_fires fires], by simp [transmitGate_of_fires fires], by simp [transmitGate_of_fires fires],
      fun written => by rw [transmitGate_of_ok fires written],
      fun k failed => ⟨sentOnError k 35, sentOnError_lt (by decide) k, sentOnError_of_lt, ?_⟩⟩
    rw [transmitGate_of_err fires failed]
  · rw [tick_seq running, tick_active running, tick_lastTx running, tick_ttx running,
      transmitGate_of_not_fires (mt (gateFires_iff s).mp waits)]
    exact ⟨rfl, rfl, rfl, rfl⟩
  · rw [tick_ioErrCnt_of_read running read, transmitGate_ioErrCnt_of_err fires failed]
  · rw [tick_ioErrCnt_of_read running read, transmitGate_ioErrCnt_of_no_err noError]

/-- Settles O38: with nothing delivered no frame is emitted; a tick that emits frames is in time. -/
theorem receiveFeedsSynchronizer : Obligations.ReceiveFeedsSynchronizer := by
  constructor
  · intro s running empty
    have nothing := delivered_of_nil empty
    obtain ⟨lastRx, inTime⟩ := quiet_tick running (emitted_of_nothing_delivered nothing)
    refine ⟨tick s, rfl, ?_, ?_, lastRx, fun h => (inTime h).right⟩
    · rw [tick_trx running, nothing, empty]
      rfl
    · rw [tick_rxBuf running, nothing]
      rfl
  · intro s bs running _ read
    have all := delivered_of_some read
    have stream : (synchronized s bs).1 = emitted s := by rw [emitted, all]
    rw [stream]
    refine ⟨tick s, rfl, ?_, ?_, fun none => ?_, fun frames => ?_⟩
    · rw [tick_trx running, ← all, delivered_append]
    · rw [tick_rxBuf running, all]
    · obtain ⟨lastRx, inTime⟩ := quiet_tick running none
      exact ⟨lastRx, fun h => (inTime h).right⟩
    · obtain ⟨lastRx, inTime⟩ := tick_in_time_of_emitted running frames
      refine ⟨lastRx, tick_evq_of_in_time running inTime, fun fit => ?_, fun drop => ?_⟩
      · simp [tick_evqOvf_of_in_time running inTime, fit]
      · simp [tick_evqOvf_of_in_time running inTime, frames, drop]

/-- Settles O39: a failed read delivers nothing, so the tick emits no frame, and the watchdog decides on the old LAST_RX. -/
theorem failedReadOnlyCounts : Obligations.FailedReadOnlyCounts := by
  intro s running waiting failed
  have nothing := delivered_of_none failed
  have none := emitted_of_nothing_delivered nothing
  obtain ⟨lastRx, inTime⟩ := quiet_tick running none
  have count := tick_ioErrCnt_of_failed_read running waiting failed
  refine ⟨tick s, rfl, ?_, ?_, lastRx, fun F new => ?_, fun noError => ?_, fun k fires failed => ?_, fun late => ?_, inTime⟩
  · rw [tick_trx running, nothing]
    rfl
  · rw [tick_rxBuf running, nothing]
    rfl
  · have frame := mem_emitted_of_telemetry_mem_newEvents running new
    simp [none] at frame
  · rw [count, transmitGate_ioErrCnt_of_no_err noError]
  · rw [count, transmitGate_ioErrCnt_of_err fires failed]
  · exact (late_tick running (lastRx.symm ▸ late)).left

/-- Settles O40: the late tick and the tick in time; a frame is dropped only where the queue is full after it. -/
theorem watchdogDecidesLink : Obligations.WatchdogDecidesLink := by
  refine fun s running => ⟨tick s, rfl, late_tick running, fun inTime => ?_⟩
  have queue := tick_evq_of_in_time running inTime
  refine ⟨tick_link_of_in_time running inTime, ⟨_, queue.trans (by rw [← List.map_take])⟩, fun room => ?_⟩
  have fit : s.evq.length + (emitted s).length ≤ s.params.evqDepth := by
    rw [queue, List.length_append, List.length_take, List.length_map] at room
    omega
  simp [tick_evqOvf_of_in_time running inTime, fit]

/-- Settles O41: the frame was emitted in this tick, so the tick is in time and all it adds are frames. -/
theorem frameRestoresSync : Obligations.FrameRestoresSync := by
  intro s t F running h new
  obtain rfl : tick s = t := Host.Outcome.next.inj h
  have frames := List.ne_nil_of_mem (mem_emitted_of_telemetry_mem_newEvents running new)
  obtain ⟨lastRx, inTime⟩ := tick_in_time_of_emitted running frames
  refine ⟨tick_link_of_in_time running inTime, lastRx, fun timeout => ?_⟩
  rw [newEvents_of_in_time running inTime] at timeout
  simpa using List.mem_of_mem_take timeout

end Sys2Proof.Proofs
end

section
/-! PROOFS. How a command ends: it completes with OK, it raises a code and changes nothing else, or it is a LINK.START whose open
failed (60_exceptions R260, R261). -/

namespace Sys2Proof.Machine

/-- The states in which the command `i`, run in `s`, can end (60_exceptions R261). Only an end with OK may have effects, and only a
failed LINK.START ends with OPEN_FAILURE. -/
inductive CommandEnd (i : Instr) (s : State) : State → Prop
  | completes (u : State) : CommandEnd i s (raise .ok u)
  | raises {c : ResultCode} (other : c ≠ .openFailure) : CommandEnd i s (raise c s)
  | openFails (start : i = .linkStart) : CommandEnd i s (raise .openFailure { s with openFail := true })

/-- FRM.CHECK answers OK, MALFORMED_FRAME or CHECKSUM_MISMATCH (41_codec R162). -/
theorem checkResult_ne_openFailure (f : Format) (s : State) : checkResult f s ≠ .openFailure := by
  unfold checkResult
  split
  · nofun
  · split <;> nofun

/-- The open of a LINK.START succeeds, or fails with nothing but OPEN_FAIL set (43_link R230). -/
theorem commandEnd_openLink (s : State) : CommandEnd .linkStart s (openLink s) := by
  cases outcome : openOutcome s with
  | ok =>
    rw [openLink_of_ok outcome]
    exact .completes _
  | fail =>
    rw [openLink_of_fail outcome]
    exact .openFails rfl

/-- Every command ends in one of the three ways: one branch of its meaning has the effects, and its guard fails into a `raise`. -/
theorem commandEnd_of_exec {i : Instr} {s t : State} (h : exec i s = .next t) : CommandEnd i s t := by
  cases i
  all_goals obtain rfl := Host.Outcome.next.inj h
  case frmCheck f => exact .raises (checkResult_ne_openFailure f s)
  case crcBuf | ck8Buf | linkStop | linkSend =>
    split
    · exact .completes _
    · exact .raises nofun
  case syncFeed | syncClr | evqPop =>
    split
    · exact .raises nofun
    · exact .completes _
  case linkStart =>
    split
    · exact .raises nofun
    · exact commandEnd_openLink s
  case nop | crcInit | crcByte | ck8Init | ck8Byte | frmSeal | frmEncA | frmEncD | snapCommit => exact .completes _

end Sys2Proof.Machine

namespace Sys2Proof.Proofs

open Sys2Proof.Machine Sys2Proof.Claims

/-- Settles O58: of the three ways a command ends, the two with a code other than OK change what R261 allows. -/
theorem raisedCommandChangesOnlyResult : Obligations.RaisedCommandChangesOnlyResult := by
  refine ⟨exec_next, fun i s t h raised => ?_⟩
  cases commandEnd_of_exec h with
  | completes u => exact absurd rfl raised
  | raises other => exact ⟨fun _ => rfl, fun failure => absurd failure other⟩
  | openFails start => exact ⟨fun other => absurd rfl other, fun _ => ⟨start, rfl⟩⟩

end Sys2Proof.Proofs
end

section
/-! PROOFS. A fair run of ticks and time steps with nothing in TRX: NOW stays within TICK_MAX of the last tick, and LINK shows what
that tick's watchdog found (43_link R220, R225, 70_reset_and_hazards R313). -/

namespace Sys2Proof.Machine

/-! ### The fields that a tick and a time step keep -/

section Kept

variable (s : State)

@[simp] theorem tick_running : (tick s).running = s.running := by rw [tick_eq_withTickFields]; rfl
@[simp] theorem tick_now : (tick s).now = s.now := by rw [tick_eq_withTickFields]; rfl
@[simp] theorem tick_tWd : (tick s).tWd = s.tWd := by rw [tick_eq_withTickFields]; rfl

variable (n : Time)

/-- A time step writes NOW only (10_state R42). -/
theorem advanceTime_frame : advanceTime n s = { s with now := (advanceTime n s).now } := by
  unfold advanceTime
  split <;> rfl

@[simp] theorem advanceTime_running : (advanceTime n s).running = s.running := by rw [advanceTime_frame]
@[simp] theorem advanceTime_link : (advanceTime n s).link = s.link := by rw [advanceTime_frame]
@[simp] theorem advanceTime_trx : (advanceTime n s).trx = s.trx := by rw [advanceTime_frame]
@[simp] theorem advanceTime_lastRx : (advanceTime n s).lastRx = s.lastRx := by rw [advanceTime_frame]
@[simp] theorem advanceTime_tWd : (advanceTime n s).tWd = s.tWd := by rw [advanceTime_frame]

theorem le_advanceTime_now : s.now ≤ (advanceTime n s).now := by
  unfold advanceTime
  split
  · assumption
  · exact BitVec.le_refl _

end Kept

/-! ### A tick with nothing to receive -/

section EmptyTrx

variable {s : State} (running : s.running = true) (empty : s.trx = [])
include running empty

theorem tick_trx_of_nil : (tick s).trx = [] := by
  rw [tick_trx running, empty, List.drop_nil]

theorem tick_lastRx_of_nil : (tick s).lastRx = s.lastRx :=
  (quiet_tick running (emitted_of_nothing_delivered (delivered_of_nil empty))).left

/-- The watchdog's unsigned 64-bit test as a sum of naturals, where LAST_RX is a past sample of NOW (43_link R220, 40_checksum R154). -/
theorem tick_link_of_nil (past : s.lastRx ≤ s.now) (late : s.lastRx.toNat + s.tWd.toNat < s.now.toNat) :
    (tick s).link = .stale := by
  refine (late_tick running ?_).left
  rw [tick_lastRx_of_nil running empty, BitVec.lt_def, BitVec.toNat_sub_of_le past, BitVec.toNat_setWidth_of_le (by decide)]
  omega

end EmptyTrx

/-! ### One step of a fair run -/

/-- The state that a step named by a program starts from: only the draw number is a fresh one. -/
def withNextDraw (s : State) : State := { s with drawCount := s.drawCount + 1 }

section Run

variable {a : AgentStep} {s u : State} (h : agentStep a (withNextDraw s) = .next u)
include h

theorem runProgram_cons_of_next (rest : List AgentStep) : runProgram (a :: rest) s = runProgram rest u := by
  have stepped : step { s with agenda := a :: s.agenda } = .next u := h
  rw [runProgram, stepped]

/-- What TICK_FAIR asks of the first step, and of the steps after it (70_reset_and_hazards R313). -/
theorem tickFair_cons_of_next {tickMax since : Nat} {rest : List AgentStep}
    (fair : tickFair tickMax (a :: rest) since s = true) :
    let since' := if a = .tick ∨ s.running = false then u.now.toNat else since
    (u.running = true → u.now.toNat ≤ since' + tickMax) ∧ tickFair tickMax rest since' u = true := by
  have first : runProgram [a] s = .next u := runProgram_cons_of_next h []
  rw [tickFair, first] at fair
  simpa [imp_iff_not_or] using fair

end Run

/-! ### The invariant of a fair run -/

/-- What holds along a fair run with an empty TRX, where `since` is the time of the last tick: the link shows stale if the watchdog
found it so at `since`, and NOW is within `tickMax` of it. -/
structure FairQuiet (tickMax since : Nat) (s : State) : Prop where
  running : s.running = true
  trx : s.trx = []
  lastRx : s.lastRx ≤ s.now
  fair : s.now.toNat ≤ since + tickMax
  shown : s.lastRx.toNat + s.tWd.toNat < since → s.link = .stale

section FairQuiet

variable {tickMax since : Nat} {s : State} (quiet : FairQuiet tickMax since s)
include quiet

theorem FairQuiet.at_nextDraw : FairQuiet tickMax since (withNextDraw s) := { quiet with }

theorem FairQuiet.after_tick : FairQuiet tickMax s.now.toNat (tick s) where
  running := (tick_running s).trans quiet.running
  trx := tick_trx_of_nil quiet.running quiet.trx
  lastRx := by simpa [tick_lastRx_of_nil quiet.running quiet.trx] using quiet.lastRx
  fair := by simp
  shown := by
    rw [tick_lastRx_of_nil quiet.running quiet.trx, tick_tWd]
    exact tick_link_of_nil quiet.running quiet.trx quiet.lastRx

theorem FairQuiet.after_time {n : Time} (fair : (advanceTime n s).now.toNat ≤ since + tickMax) :
    FairQuiet tickMax since (advanceTime n s) where
  running := by simpa using quiet.running
  trx := by simpa using quiet.trx
  lastRx := by simpa using BitVec.le_trans quiet.lastRx (le_advanceTime_now s n)
  fair := fair
  shown := by simpa using quiet.shown

/-- One step of the run: a tick samples NOW anew, and TICK_FAIR bounds NOW after a time step. -/
theorem FairQuiet.step {a : AgentStep} {rest : List AgentStep} (only : a = .tick ∨ ∃ n, a = .time n)
    (fair : tickFair tickMax (a :: rest) since s = true) :
    ∃ u since', agentStep a (withNextDraw s) = .next u ∧ u.lastRx = s.lastRx ∧ u.tWd = s.tWd ∧
      FairQuiet tickMax since' u ∧ tickFair tickMax rest since' u = true := by
  have start := quiet.at_nextDraw
  rcases only with rfl | ⟨n, rfl⟩
  · obtain ⟨-, later⟩ := tickFair_cons_of_next (u := tick (withNextDraw s)) rfl fair
    rw [if_pos (.inl rfl), tick_now] at later
    exact ⟨_, _, rfl, tick_lastRx_of_nil start.running start.trx, tick_tWd _, start.after_tick, later⟩
  · obtain ⟨bound, later⟩ := tickFair_cons_of_next (u := advanceTime n (withNextDraw s)) rfl fair
    rw [if_neg (by simp [quiet.running])] at bound later
    have quiet' := start.after_time (bound ((advanceTime_running _ n).trans start.running))
    exact ⟨_, _, rfl, advanceTime_lastRx _ n, advanceTime_tWd _ n, quiet', later⟩

/-- Past the threshold by more than TICK_MAX, NOW was past the threshold at the last tick too. -/
theorem FairQuiet.link_stale (late : s.lastRx.toNat + s.tWd.toNat + tickMax < s.now.toNat) : s.link = .stale :=
  quiet.shown (by have := quiet.fair; omega)

end FairQuiet

/-- The end of a fair run is as quiet as its start, with the same LAST_RX and T_WD. -/
theorem FairQuiet.end_of_run {tickMax : Nat} {steps : List AgentStep} {t : State} : ∀ {since : Nat} {s : State},
    FairQuiet tickMax since s → (∀ a ∈ steps, a = .tick ∨ ∃ n, a = .time n) → tickFair tickMax steps since s = true →
      runProgram steps s = .next t → t.lastRx = s.lastRx ∧ t.tWd = s.tWd ∧ ∃ since', FairQuiet tickMax since' t := by
  induction steps with
  | nil =>
    intro since s quiet _ _ run
    obtain rfl := Host.Outcome.next.inj run
    exact ⟨rfl, rfl, since, quiet⟩
  | cons a rest ih =>
    intro since s quiet only fair run
    obtain ⟨head, tail⟩ := List.forall_mem_cons.mp only
    obtain ⟨u, since', stepped, keptRx, keptWd, quiet', later⟩ := quiet.step head fair
    rw [runProgram_cons_of_next stepped] at run
    obtain ⟨lastRx, tWd, ended⟩ := ih quiet' tail later run
    exact ⟨lastRx.trans keptRx, tWd.trans keptWd, ended⟩

end Sys2Proof.Machine

namespace Sys2Proof.Proofs

open Sys2Proof.Machine Sys2Proof.Claims

/-- Settles O43: the run keeps LAST_RX and T_WD, and its last tick came late enough to find the link stale. -/
theorem staleShownUnderTickFair : Obligations.StaleShownUnderTickFair := by
  intro tickMax since steps s t only running trx lastRx _ fair shown fairRun run late
  have quiet : FairQuiet tickMax since s := ⟨running, trx, lastRx, fair, shown⟩
  obtain ⟨keptRx, keptWd, _, ended⟩ := quiet.end_of_run only fairRun run
  rw [← keptRx, ← keptWd] at late
  exact ended.link_stale late

end Sys2Proof.Proofs
end

section
/-! PROOFS. What the machine never takes back: every step but reset and EVQ.POP only appends to EVQ, every step only appends to TTX,
and none changes the OPEN parameters (00_scope R7, 10_state R56, 20_memory R92, 70_reset_and_hazards R307). -/

namespace Sys2Proof.Machine

/-! ### Growth -/

/-- The TTX of `t` begins with that of `s`, under the same parameters. -/
structure StreamGrows (s t : State) : Prop where
  ttx : s.ttx <+: t.ttx
  params : t.params = s.params

/-- The EVQ of `t` begins with that of `s` too: no event was taken away. -/
structure Grows (s t : State) : Prop extends StreamGrows s t where
  evq : s.evq <+: t.evq

theorem Grows.of_eq {s t : State} (evq : t.evq = s.evq) (ttx : t.ttx = s.ttx) (params : t.params = s.params) : Grows s t where
  evq := evq ▸ List.prefix_rfl
  ttx := ttx ▸ List.prefix_rfl
  params := params

theorem Grows.refl (s : State) : Grows s s := .of_eq rfl rfl rfl

theorem Grows.trans {s t u : State} (first : Grows s t) (second : Grows t u) : Grows s u where
  evq := first.evq.trans second.evq
  ttx := first.ttx.trans second.ttx
  params := second.params.trans first.params

/-! ### The shared operations -/

theorem raise_grows (c : ResultCode) (s : State) : Grows s (raise c s) := .of_eq rfl rfl rfl

theorem enqueue_grows (ev : Event) (s : State) : Grows s (enqueue ev s) := by
  rcases enqueue_cases ev s with ⟨-, e⟩ | ⟨-, e⟩ <;> rw [e]
  · exact ⟨⟨List.prefix_rfl, rfl⟩, List.prefix_append _ _⟩
  · exact .of_eq rfl rfl rfl

theorem transportWrite_grows (F : List Byte) (s : State) : Grows s (transportWrite F s) := by
  rcases transportWrite_cases F s with ⟨-, e⟩ | ⟨_, -, e⟩ <;> rw [e] <;>
    exact ⟨⟨List.prefix_append _ _, rfl⟩, List.prefix_rfl⟩

theorem feed1_emitHost_grows (b : Byte) (s : State) : Grows s (feed1 emitHost b s) := by
  have emits (frames : List (List Byte)) : ∀ u : State, Grows u (frames.foldl (fun v F => emitHost F v) u) := by
    induction frames with
    | nil => exact .refl
    | cons F frames ih => exact fun u => (enqueue_grows (.telemetry F) u).trans (ih _)
  have buffered (l : List Byte) : Grows s (setRxBuf l s) := .of_eq rfl rfl rfl
  exact (buffered _).trans (emits _ _)

/-! ### The tick -/

theorem transmitGate_grows (t : Time) (s : State) : Grows s (transmitGate t s) := by
  rcases transmitGate_cases t s with ⟨-, e⟩ | ⟨-, e⟩ <;> rw [e]
  · exact .refl s
  · exact { transportWrite_grows (encA s (s.seq + 1#16) s.active.ammo)
      { s with seq := s.seq + 1#16, active := { s.active with ammo := 0#32 } } with }

theorem receive_grows (t : Time) (s : State) : Grows s (receive t s) := by
  rw [receive_eq]
  exact ⟨⟨List.prefix_rfl, rfl⟩, List.prefix_append _ _⟩

theorem watchdog_grows (t : Time) (s : State) : Grows s (watchdog t s) := by
  rcases watchdog_cases t s with ⟨-, e⟩ | ⟨-, e⟩ <;> rw [e]
  · exact { enqueue_grows .linkTimeout { s with link := .stale } with }
  · exact .of_eq rfl rfl rfl

theorem tick_grows (s : State) : Grows s (tick s) := by
  cases running : s.running with
  | true =>
    rw [tick_of_running running]
    exact (transmitGate_grows _ s).trans ((receive_grows _ _).trans (watchdog_grows _ _))
  | false =>
    rw [tick_of_stopped running]
    exact .refl s

/-! ### The commands -/

theorem openLink_grows (s : State) : Grows s (openLink s) := by
  unfold openLink
  split
  · exact { enqueue_grows .connOpened { s with
      running := true, lastTx := s.now, lastRx := s.now, rxBuf := [], ioErrCnt := 0x0000#16, openFail := false } with }
  · exact .of_eq rfl rfl rfl

theorem stopLink_grows (s : State) : Grows s (stopLink s) :=
  { enqueue_grows .connClosed (transportClose s) with }

/-- FRM.SEAL, FRM.ENCA and FRM.ENCD write FRAMEBUF and FRAMELEN (41_codec R161 to R164). -/
theorem frame_written_grows (i : Nat) (bs : List Byte) (n : Byte) (s : State) :
    Grows s (raise .ok { putFb i bs s with frameLen := n }) :=
  .of_eq rfl rfl rfl

theorem exec_grows {i : Instr} (keeps : i ≠ .evqPop) {s t : State} (h : exec i s = .next t) : Grows s t := by
  cases i
  all_goals obtain rfl := Host.Outcome.next.inj h
  case evqPop => exact absurd rfl keeps
  case syncFeed b =>
    split
    · exact raise_grows _ s
    · exact (feed1_emitHost_grows b s).trans (raise_grows _ _)
  case linkStart =>
    split
    · exact raise_grows _ s
    · exact openLink_grows s
  case linkStop =>
    split
    · exact (stopLink_grows s).trans (raise_grows _ _)
    · exact raise_grows _ s
  case linkSend =>
    split
    · split
      · exact raise_grows _ s
      · exact (transportWrite_grows _ s).trans (raise_grows _ _)
    · exact raise_grows _ s
  case crcBuf | ck8Buf | syncClr => split <;> exact .of_eq rfl rfl rfl
  case frmSeal | frmEncA | frmEncD => exact frame_written_grows _ _ _ s
  case nop | crcInit | crcByte | ck8Init | ck8Byte | frmCheck | snapCommit =>
    exact .of_eq rfl rfl rfl

theorem exec_evqPop_streamGrows {s t : State} (h : exec .evqPop s = .next t) : StreamGrows s t := by
  obtain rfl := Host.Outcome.next.inj h
  split <;> exact ⟨List.prefix_rfl, rfl⟩

/-! ### The agents -/

/-- A step that may take events from EVQ: reset, and the write of EVQ.POP's word to CMD (20_memory R92). -/
def TakesEvents (a : AgentStep) : Prop := a = .reset ∨ a = .write .word 0x008#12 0x00000040#32

/-- What every step does to EVQ, TTX and the parameters. -/
def StepGrows (a : AgentStep) (s t : State) : Prop := Grows s t ∨ TakesEvents a ∧ StreamGrows s t

theorem writeRegister_grows (r : Register) (v : Word) (s : State) : Grows s (writeRegister r v s) := by
  cases r with
  | seq =>
    cases running : s.running with
    | true =>
      rw [writeRegister_seq_of_running running]
      exact .refl s
    | false =>
      rw [writeRegister_seq_of_stopped running]
      exact .of_eq rfl rfl rfl
  | _ => exact .of_eq rfl rfl rfl

theorem hostRead_grows (r : Register) (s : State) : Grows s (hostRead r s) := by
  cases r <;> exact .of_eq rfl rfl rfl

theorem performCommand_grows {w : Word} {s t : State} (h : performCommand w s = .next t) :
    StepGrows (.write .word 0x008#12 w) s t := by
  rcases performCommand_cases w s with ⟨i, decoded, e⟩ | ⟨_, -, e⟩
  · rw [e] at h
    by_cases pop : i = .evqPop
    · subst pop
      obtain rfl := encode_of_decode decoded
      exact .inr ⟨.inr rfl, exec_evqPop_streamGrows h⟩
    · exact .inl (exec_grows pop h)
  · obtain rfl := Host.Outcome.next.inj (e.symm.trans h)
    exact .inl (raise_grows _ s)

theorem hostWrite_grows {off : Offset} (aligned : off.toNat % 4 = 0) {v : Word} {s t : State}
    (h : hostWrite (registerAt off) v s = .next t) : StepGrows (.write .word off v) s t := by
  rcases hostWrite_cases (registerAt off) v s with ⟨cmd, e⟩ | ⟨-, e⟩
  · obtain rfl := eq_registerOffset_of_registerAt aligned cmd nofun
    exact performCommand_grows (e.symm.trans h)
  · obtain rfl := Host.Outcome.next.inj (e.symm.trans h)
    exact .inl (writeRegister_grows _ v s)

theorem agentStep_grows {a : AgentStep} {s t : State} (h : agentStep a s = .next t) : StepGrows a s t := by
  cases a with
  | read width off =>
    obtain ⟨-, -, rfl⟩ := agentStep_read_eq_next h
    exact .inl (hostRead_grows _ s)
  | write width off v =>
    obtain ⟨rfl, aligned, written⟩ := agentStep_write_eq_next h
    exact hostWrite_grows aligned written
  | time n =>
    obtain rfl := Host.Outcome.next.inj h
    rw [advanceTime_frame]
    exact .inl (.of_eq rfl rfl rfl)
  | tick =>
    obtain rfl := Host.Outcome.next.inj h
    exact .inl (tick_grows s)
  | rx bs =>
    obtain rfl := Host.Outcome.next.inj h
    unfold transportArrive
    split <;> exact .inl (.of_eq rfl rfl rfl)
  | drawOpen o | drawWrite o | drawRead o =>
    obtain rfl := Host.Outcome.next.inj h
    exact .inl (.of_eq rfl rfl rfl)
  | reset =>
    obtain rfl := Host.Outcome.next.inj h
    exact .inr ⟨.inl rfl, List.prefix_rfl, rfl⟩

end Sys2Proof.Machine

namespace Sys2Proof.Proofs

open Sys2Proof.Machine Sys2Proof.Claims

/-- Settles O60: a step takes no event away, or it is reset or EVQ.POP; in both cases TTX grows and the parameters stay. -/
theorem queueAndStreamsOnlyGrow : Obligations.QueueAndStreamsOnlyGrow := by
  intro a s t h
  rcases agentStep_grows h with grows | ⟨taker, streams⟩
  · exact ⟨fun _ _ => grows.evq, grows.ttx, grows.params⟩
  · exact ⟨fun notReset notPop => absurd taker (not_or.mpr ⟨notReset, notPop⟩), streams.ttx, streams.params⟩

end Sys2Proof.Proofs
end

section
/-! PROOFS. The reset step: every field it writes is the reset value, by the definition of `resetBlock` (70_reset_and_hazards R290 to
R292). -/

namespace Sys2Proof.Machine

/-- After reset no event is queued, no flag is up and RXBUF is empty, so STATUS reads 0 (10_state R33). -/
theorem statusWord_resetBlock (s : State) : statusWord (resetBlock s) = 0#32 := by
  show statusWord State.reset = 0#32
  decide

theorem get_zero (f : SnapField) : Snapshot.zero.get f = 0#32 := by
  cases f <;> rfl

end Sys2Proof.Machine

namespace Sys2Proof.Proofs

open Sys2Proof.Machine Sys2Proof.Claims

/-- Settles O55: field by field, the value that `resetBlock` writes, and the views of those values. -/
theorem resetStepState : Obligations.ResetStepState := fun s =>
  ⟨resetBlock s, rfl, ⟨rfl, rfl, rfl, rfl, rfl, rfl, rfl, rfl, rfl, rfl, rfl, rfl, rfl, rfl, rfl, rfl, rfl⟩,
    fun f => ⟨get_zero f, get_zero f⟩, Memory.read_nil, ⟨rfl, rfl, rfl, rfl, rfl, rfl⟩,
    statusWord_resetBlock s, evqHeadWord_nil rfl, rfl⟩

/-- Settles O57: the reset step, which ends in a sound state, leaves the reset state as it is. -/
theorem resetSatisfiesInv : Obligations.ResetSatisfiesInv :=
  inv_resetBlock State.reset

end Sys2Proof.Proofs
end
